-- ==== Sys2Proof/Word.lean ====
section
/-! DEFINITION. The words of the link and the rolling counters of the part. Conventions of `spec/00_scope.md`:
byte values stand on the link, vertical positions and the other rolling counters wrap at their width, and
horizontal positions, widths and counts are plain numbers. -/

-- In every file of the package but Dispatch and Core: commands elaborated side by side hold more stacks than its
-- check has memory for.
set_option Elab.async false

namespace Sys2Proof

/-- A byte of the link or of the flash. -/
abbrev Byte := BitVec 8

/-- A two-byte field of a request. -/
abbrev Half := BitVec 16

/-- A vertical position in platen steps: a rolling counter 0..65535 (`spec/00_scope.md`, Units and ranges). -/
abbrev VPos := BitVec 16

/-- A word id, a rolling number 0..255 (R129). -/
abbrev WordId := BitVec 8

/-- The epoch of a word table entry, a rolling count (R131). -/
abbrev Epoch := BitVec 8

/-- A line generation, a rolling count 0..255 (R110). -/
abbrev Generation := BitVec 8

end Sys2Proof
end

