-- ==== Sys2Proof/Syntax.lean ====
section
/-! DEFINITION. The commands: one constructor for each row of `spec/opcode_table.json`, in the table's order, with
the operands that the row's rule gives it (log 7). A request carries the bytes of its payload after the codes that
the row itself fixes; an event carries the level, direction or measure that the rule reads at the event. -/

set_option Elab.async false

namespace Sys2Proof

/-- A key entry as it stands in a KEY payload: the code, then the attributes (chapter 11, layouts). -/
structure KeyBytes where
  code : Byte
  attributes : Byte
deriving DecidableEq, Repr

/-- A glyph entry of a wheel table as it arrives: petal, width units, impression class (chapter 11, layouts). -/
structure GlyphBytes where
  petal : Byte
  units : Byte
  cls : Byte
deriving DecidableEq, Repr

/-- The three sensors of the SENSOR_CHANGE row (R99); the cover and the lever have rows of their own. -/
inductive PlainSensor where
  | paper
  | ribbon
  | tape
deriving DecidableEq, Repr

/-- The commands and events of the part. -/
inductive Instr where
  -- reset and link (R185, R187 to R190)
  | hardReset
  | receiveByte (b : Byte)
  | byteError
  | huntIdleTimeout
  | gapTimerExpiry
  | unknownFrame (typ : Byte)
  | transmitFrameEnd
  -- requests (R192)
  | key (entries : List KeyBytes)
  | setMode (value : Byte)
  | setPitch (value : Byte)
  | setLeftMargin (position : Half)
  | setRightMargin (position : Half)
  | tabSet (position : Half)
  | tabClear (position : Half)
  | tabClearAll
  | setAlign (value : Byte)
  | setDistribute (value : Byte)
  | setImpression (value : Byte)
  | setEnergy (cls : Byte) (setting : Byte) (onTime : Half)
  | setSpacing (halfLines : Byte)
  | setBellZone (steps : Half)
  | setSpell (value : Byte)
  | setBidi (value : Byte)
  | setStandbyTimer (units : Half)
  | setContrast (level : Byte)
  | wheelTablePiece0 (slot : Byte) (wheel : Byte) (cls : Byte) (space : Byte) (underline : Byte)
  | wheelTablePiece (slot : Byte) (piece : Byte) (entries : List GlyphBytes)
  | wheelChange (expected : Byte)
  | readLine (piece : Byte)
  | release
  | accept (word : Byte)
  | addWord (glyphs : List Byte)
  | removeWord (glyphs : List Byte)
  | dictionary
  | displayText (seconds : Byte) (codes : List Byte)
  | status
  | statusClearAccrued
  | identify
  | selfTest
  | saveContext
  | restoreContext (form : List Byte)
  | resume
  | flush
  | pause
  | continuing
  | standby
  | sleep
  | deepOff
  | wake
  | reset
  | paperLoad
  | paperEject
  -- keys taken from the head of the key queue (R3)
  | printableKey
  | space
  | returnKey
  | paragraphReturn
  | backspace
  | tab
  | marginRelease
  | index
  | reverseIndex
  | halfUp
  | halfDown
  | correct
  | correctWord
  | correctLine
  | relocate
  -- the sequencer and the motion channels (R70, R87 to R97)
  | orderStart
  | carriageMoveEnd
  | carriageEncoderEdge
  | carriageMotionTimerExpiry
  | homeFlagChange (active : Bool)
  | homeStepLimit
  | wheelSettled
  | wheelRotationTimerExpiry
  | indexMark (width : Nat)
  | wheelSearchLimit
  | codeMark (width : Nat)
  | recoveryHomingStart
  | platenEncoderEdge (forward : Bool)
  | platenMotionTimerExpiry
  | liftSwitchChange (lsw1Closed : Bool) (lsw0Closed : Bool)
  | liftTimerExpiry
  | onTimeEnd
  | restEnd
  | hammerHome
  | stuckTimerExpiry
  -- sensors, flash and timers (R99 to R101, R140, R77, R154, R158, R160, R180)
  | sensorChange (sensor : PlainSensor) (level : Bool)
  | coverOpenEvent
  | coverClosedEvent
  | releaseLeverChange (engaged : Bool)
  | flashReadEnd (bytes : List Byte) (sizeCode : Half)
  | flashReadTimeout
  | viewTimerExpiry
  | standbyTimerExpiry
  | pendingEntryStart
  | blinkTimerExpiry
  | holdTimerExpiry
  | overrideTimerExpiry
deriving DecidableEq, Repr

end Sys2Proof
end

