-- ==== Sys2Proof/Decode.lean ====
section
/-! DEFINITION. Words of the opcode table. A command reaches the part as a frame, an event or a key, and no row of
the table gives bits: no word spells a command (log 13). The byte layouts of the requests are read by
`Engine.takeFrame`, which RECEIVE_BYTE calls. -/

set_option Elab.async false

namespace Sys2Proof

/-- The command that a word spells by the table's bits: none, for want of bits (log 13). -/
def decodeTableWord (_nbits _w : Nat) : Option Instr := none

end Sys2Proof
end

