-- ==== Sys2Proof/Config.lean ====
section
/-! DEFINITION. What the spec leaves open. Each constant has no body, so nothing can be proved of its value. The
constants that are functions are applied to the model's own counter `Engine.free`, which counts the open values
drawn so far, so that each draw is a fresh one. -/

set_option Elab.async false

namespace Sys2Proof

/-- The silicon revision of the identity record: a byte whose value the layout section does not give (log 2). -/
opaque Config.siliconRevision : Byte

/-- How far the carriage drive has come when an event other than the end of its move reads or stops it: the drive
steps between two encoder edges are no commands of the table (R87, R88; log 3). -/
opaque Config.carriageDriven : Nat → Nat

/-- Whether the coil sense input shows current at a coil check (R98; log 4). -/
opaque Config.coilSense : Nat → Bool

/-- Whether, when one request makes a reply and a notice available at an idle line, the notice is taken first (R190;
log 5). -/
opaque Config.noticeFirst : Nat → Bool

/-- The place of a SENSOR notice among the notices of its event, counted from the first: no rule orders them (R191;
log 17). -/
opaque Config.sensorPlace : Nat → Nat

/-- The sensor levels byte of a STATUS reply in DEEP_OFF, where no level is watched (R182, R195; log 6). -/
opaque Config.deepOffLevels : Nat → BitVec 5

/-- The size code with which the flash device answers at the memory port, in units of 64 kilobytes (R195; log 67). -/
opaque Config.flashSize : BitVec 16

end Sys2Proof
end

