-- ==== Sys2Proof/Machine/State.lean ====
section
/-! DEFINITION. The state of the part as plain data, block by block (`spec/00_scope.md`, Block overview), its values
after a hard reset, and the two types of reasons to stop. INVENTORY.md lists every field with its rule. -/

set_option Elab.async false

namespace Sys2Proof.Machine

/-! ## Selectors and names -/

/-- Composition mode (R5). -/
inductive Mode where
  | direct
  | line
deriving DecidableEq, Repr

/-- The pitch setting (R28). -/
inductive Pitch where
  | auto
  | p10
  | p12
  | p15
  | ps
deriving DecidableEq, Repr

/-- The pitch class of a wheel table, and the effective pitch (R28, R46). -/
inductive PitchClass where
  | p10
  | p12
  | p15
  | ps
deriving DecidableEq, Repr

/-- ALIGN (R37). -/
inductive Align where
  | left
  | right
  | center
  | justify
deriving DecidableEq, Repr

/-- DISTRIBUTE (R37). -/
inductive Distribute where
  | leading
  | trailing
  | spread
  | truncate
deriving DecidableEq, Repr

/-- SPELL (R134). -/
inductive SpellSetting where
  | off
  | flag
  | hold
deriving DecidableEq, Repr

/-- The names of the fires (R63). -/
inductive FireName where
  | glyph
  | shadow
  | under1
  | under2
deriving DecidableEq, Repr

/-- One entry of a fire list (R63): the petal is absent only where R53 leaves it so. -/
structure Fire where
  name : FireName
  position : Nat
  petal : Option Nat
deriving DecidableEq, Repr

/-- The fourteen fault kinds (R164). -/
inductive FaultKind where
  | carriageStall
  | wheelStall
  | wheelHomeFail
  | platenStall
  | liftStall
  | hammerStuck
  | coverOpen
  | wheelMismatch
  | noWheelTable
  | absentPetal
  | liftWheel
  | paperOut
  | ribbonEnd
  | tapeEnd
deriving DecidableEq, Repr

/-- The kind of an order as messages name it (chapter 11, shared codes). -/
inductive OrderName where
  | strike
  | lift
  | move
  | ret
  | feed
  | wheelChange
  | paperLoad
  | paperEject
deriving DecidableEq, Repr

/-! ## The link controller (chapter 11) -/

/-- One frame of the outgoing line: its type byte and its payload. -/
structure Frame where
  typ : Byte
  payload : List Byte
deriving DecidableEq, Repr

/-- A frame on its way out. `closing` marks the OK reply of DEEP_OFF, which is sent in full before the part goes
off (R182). -/
structure Outgoing where
  frame : Frame
  closing : Bool := false
deriving DecidableEq, Repr

/-- The receiver's states (R187). -/
inductive RxState where
  | idle
  | typeTaken
  | payload
  | hunt
deriving DecidableEq, Repr

/-- A timer: `none` when stopped, otherwise the microseconds it was last started at. Its expiry is a command of the
table, so no field counts down (log 8). -/
abbrev Timer := Option Nat

/-- The receiver (R187, R188). -/
structure Receiver where
  state : RxState := .idle
  typ : Byte := 0
  length : Nat := 0
  bytes : List Byte := []
  gapTimer : Timer := none
deriving DecidableEq, Repr

/-- Reasons of a BELL notice (chapter 11, notices). -/
inductive Bell where
  | approach
  | margin
  | lineFull
  | absent
  | noWheel
  | lineOpen
  | wheel
  | notRemembered
deriving DecidableEq, Repr

/-- Kinds of a DONE notice (chapter 11, notices): the group kinds of R66 and the self-test. -/
inductive GroupKind where
  | line
  | correction
  | wheelChange
  | paper
  | selfTest
deriving DecidableEq, Repr

/-- Outcomes of a DONE notice (R83). -/
inductive DoneOutcome where
  | complete
  | stale
  | flushed
  | aborted
deriving DecidableEq, Repr

/-- Causes of a wheel homing (R56). -/
inductive HomingCause where
  | start
  | reset
  | change
  | wake
  | resume
  | selfTest
  | recovery
deriving DecidableEq, Repr

/-- Outcomes of a wheel homing (R56). -/
inductive HomingOutcome where
  | mounted
  | adopted
  | mismatch
  | failed
deriving DecidableEq, Repr

/-- The five sensors (R99). -/
inductive Sensor where
  | paper
  | cover
  | lever
  | ribbon
  | tape
deriving DecidableEq, Repr

/-- The levels of the five sensors (R99): PRESENT, CLOSED, ENGAGED, ribbon END, tape END. -/
structure Levels where
  present : Bool
  closed : Bool
  engaged : Bool
  ribbonEnd : Bool
  tapeEnd : Bool
deriving DecidableEq, Repr

/-- Power states (R179). -/
inductive PowerState where
  | starting
  | run
  | standby
  | sleep
  | deepOff
deriving DecidableEq, Repr

/-- Dictionary states (R141). -/
inductive DictState where
  | absent
  | probing
  | ready
  | failed
deriving DecidableEq, Repr

/-- Reasons of a LINK notice (chapter 11, notices). -/
inductive LinkReason where
  | byteError
  | timeout
  | length
  | overrun
deriving DecidableEq, Repr

/-- The two slots of the fault record (R164). -/
inductive SlotName where
  | x
  | p
deriving DecidableEq, Repr

/-- The notices (R191, layouts of chapter 11). A notice's content is fixed when it is offered. -/
inductive Notice where
  | bell (reason : Bell)
  | done (group : Nat) (kind : GroupKind) (outcome : DoneOutcome) (count : Nat) (codes : List Nat)
  | fault (slot : SlotName) (kind : FaultKind) (order : Option OrderName) (afterHammer : Bool) (group : Nat)
      (glyph : Option Byte) (target : Option (Nat × VPos)) (required : Option Nat)
  | spellWord (word : WordId) (vertical : VPos) (start : Nat) (letters : List Nat)
  | spellDict (state : DictState) (wordCount : Nat) (bucketCount : Nat)
  | wheel (cause : HomingCause) (outcome : HomingOutcome) (code : Option Nat) (required : Option Nat)
  | sensor (named : Option Sensor) (levels : Levels)
  | power (state : PowerState)
  | link (reason : LinkReason)
  | overflow (count : Nat)
deriving DecidableEq, Repr

/-- The link controller: receiver, reply list, transmitter, notice queue (R187 to R191). -/
structure Link where
  rx : Receiver := {}
  replies : List Outgoing := []
  tx : Option Outgoing := none
  notices : List Notice := []
deriving DecidableEq, Repr

/-! ## The composition unit (chapter 1) -/

/-- A key entry of the key queue (R1); the ignored attribute bits are gone. -/
structure KeyEntry where
  code : Byte
  bold : Bool
  underline : Bool
deriving DecidableEq, Repr

/-- What a cell holds (R5). -/
inductive Content where
  | glyph (code : Byte)
  | space
  | underlinedSpace
deriving DecidableEq, Repr

/-- Where a cell stands (R5). A QUEUED cell names its order by the order's number (log 9). -/
inductive Origin where
  | queued (order : Nat)
  | onPaper (record : Option Nat)
  | unreleased
deriving DecidableEq, Repr

/-- A cell of the composition line (R5). -/
structure Cell where
  start : Nat
  width : Nat
  content : Content
  bold : Bool
  underline : Bool
  word : Option WordId
  origin : Origin
  /-- Of an UNRELEASED cell: the width u of the underline glyph as R27 gives it when the key is composed, or none where
  the slot had no underline glyph then (R40; log 29). -/
  under : Option Nat := none
deriving DecidableEq, Repr

/-- The composition unit's own state (R5); its settings stand in `Settings`. -/
structure Composition where
  keys : List KeyEntry := []
  cursor : Nat := 120
  vTarget : VPos := 0
  line : List Cell := []
  index : Nat := 0
  word : Option WordId := none
  bellRung : Bool := false
  marginRelease : Bool := false
  relocateH : Nat := 120
  relocateV : VPos := 0
  wheel : Option Nat := none
  composed : Bool := false
deriving DecidableEq, Repr

/-! ## Settings of the host (R5, R28, R37, R51, R52, R134, R161, R180) -/

/-- Every setting that a SET request changes. -/
structure Settings where
  mode : Mode := .direct
  left : Nat := 120
  right : Nat := 900
  tabs : List Nat := []
  spacing : Nat := 8
  bellZone : Nat := 60
  pitch : Pitch := .auto
  align : Align := .left
  distribute : Distribute := .spread
  bidi : Bool := false
  impression : Nat := 2
  /-- The energy table: row by impression class 0..3, column by impression setting 1..3 (R52). -/
  energy : List (List Nat) := [[600, 800, 1000], [900, 1100, 1300], [1200, 1400, 1600], [1500, 1700, 1900]]
  spell : SpellSetting := .flag
  standby : Nat := 24
  contrast : Nat := 8
deriving DecidableEq, Repr

/-- The three line flags (R43). -/
structure LineFlags where
  inexact : Bool := false
  loose : Bool := false
  overset : Bool := false
deriving DecidableEq, Repr

/-- The escapement calculator: current and accrued flags (R43, R44). -/
structure Escapement where
  current : LineFlags := {}
  accrued : LineFlags := {}
deriving DecidableEq, Repr

/-! ## The wheel table store (chapter 3) -/

/-- A slot's state; LOADING keeps the piece it expects next (R46, R50). -/
inductive SlotState where
  | empty
  | loading (next : Nat)
  | ready
deriving DecidableEq, Repr

/-- A glyph entry as stored (R46). -/
structure GlyphEntry where
  petal : Option Nat
  units : Nat
  cls : Nat
deriving DecidableEq, Repr

/-- A wheel slot (R46). -/
structure WheelSlot where
  state : SlotState := .empty
  id : Nat := 0
  pitch : PitchClass := .p10
  space : Nat := 2
  underline : Option Byte := none
  entries : List GlyphEntry := []
deriving DecidableEq, Repr

/-! ## The strike sequencer (chapter 4) -/

/-- An order's state (R65). -/
inductive OrderState where
  | queued
  | prepared
  | executing
deriving DecidableEq, Repr

/-- What a LIFT refers to: a record's slot, the order whose first fire will make its record (R120), no record of an order
that is still to complete (R120), or nothing any more (R111). -/
inductive LiftRef where
  | record (slot : Nat)
  | bound (order : Nat)
  | emptied (order : Nat)
  | gone
deriving DecidableEq, Repr

/-- The extra fields of a STRIKE (R63). -/
structure StrikeFields where
  glyph : Option Byte
  petal : Option Nat
  underlinePetal : Option Nat
  width : Nat
  onTime : Nat
  bold : Bool
  underline : Bool
  word : Option WordId
  fires : List Fire
deriving DecidableEq, Repr

/-- The kinds of order with their extra fields (R63). -/
inductive OrderKind where
  | strike (fields : StrikeFields)
  | lift (ref : LiftRef)
  | move
  | ret (feed : Nat)
  | feed (steps : Int)
  | wheelChange (expected : Nat)
  | paperLoad
  | paperEject
deriving DecidableEq, Repr

/-- How far an executing order without fires has come (R59, R71). -/
inductive Phase where
  | start
  | feeding
  | awaitOpen
  | awaitClose
  | home
deriving DecidableEq, Repr

/-- What a LIFT takes up from its record when it starts (R74). -/
structure LiftCopy where
  fires : List Fire
  onTime : Nat
  glyph : Option Byte
deriving DecidableEq, Repr

/-- An order (R63). `number` ties it to its cells and its bound LIFT. -/
structure Order where
  number : Nat
  kind : OrderKind
  group : Nat
  horizontal : Nat
  vertical : VPos
  state : OrderState := .queued
  /-- The held failure of the prepare stage (R68), and whether the P slot has it already. -/
  held : Option FaultKind := none
  heldWritten : Bool := false
  /-- The fires made, and the after-hammer mark (R167). -/
  fired : List FireName := []
  afterHammer : Bool := false
  /-- The record that a STRIKE's first fire made, while it is in the memory (R73). -/
  record : Option Nat := none
  copy : Option LiftCopy := none
  phase : Phase := .start
deriving DecidableEq, Repr

/-- An entry of the group table (R66). `flushed` and `aborted` say how an order of it was lost (R83). -/
structure Group where
  id : Nat
  kind : GroupKind
  remaining : Nat
  notExecuted : Nat := 0
  stale : Bool := false
  flushed : Bool := false
  aborted : Bool := false
deriving DecidableEq, Repr

/-- Sequencer states (R78). -/
inductive SeqState where
  | stopped
  | idle
  | running
  | paused
  | faulted
deriving DecidableEq, Repr

/-- Release stage states (R22). -/
inductive StageState where
  | empty
  | filling
  | held
deriving DecidableEq, Repr

/-- The parts of RESUME's channel recovery that still run (R170). -/
structure Recovery where
  carriage : Bool := false
  wheel : Bool := false
  lift : Bool := false
deriving DecidableEq, Repr

/-- The strike sequencer with the release stage it drains (R22, R64 to R86). -/
structure Sequencer where
  state : SeqState := .stopped
  pausePending : Bool := false
  queue : List Order := []
  stageState : StageState := .empty
  stage : List Order := []
  groups : List Group := []
  lastGroup : Nat := 0
  printPoint : Nat := 0
  viewTimer : Timer := none
  recovery : Recovery := {}
  /-- A lift move to VIEW, of a fault or of the view timer, that still waits for the channels to allow it (R71, R76, R77). -/
  liftToView : Bool := false
  /-- The totals of the ribbon and tape advance pulses sent (R75). -/
  ribbonSteps : Nat := 0
  tapeUnits : Nat := 0
  /-- The number the next order takes (log 9). -/
  nextOrder : Nat := 0
deriving DecidableEq, Repr

/-! ## The motion channels and sensors (chapter 5) -/

/-- Carriage states (R87). -/
inductive CarriageState where
  | lost
  | homing
  | idle
  | moving
  | off
deriving DecidableEq, Repr

/-- What a carriage motion belongs to. -/
inductive CarriageUse where
  | order
  | startUp
  | softReset
  | wake
  | resume
  | selfTest
deriving DecidableEq, Repr

/-- Where the carriage goes after a homing (R89). -/
inductive AfterHoming where
  | stay
  | to (position : Nat)
  | leftMargin
deriving DecidableEq, Repr

/-- The carriage channel (R87 to R89). -/
structure Carriage where
  state : CarriageState := .lost
  position : Nat := 0
  target : Nat := 0
  /-- The first part of a homing, rightwards off the flag, and the counter at its beginning (R89). -/
  rightwards : Bool := false
  start : Nat := 0
  after : AfterHoming := .stay
  use : CarriageUse := .order
  timer : Timer := none
deriving DecidableEq, Repr

/-- Wheel channel states (R90). -/
inductive WheelState where
  | unknown
  | homing
  | settled
  | rotating
  | off
deriving DecidableEq, Repr

/-- What a wheel homing belongs to (R55). -/
inductive HomingUse where
  | startUp
  | softReset
  | change
  | wake
  | resume
  | selfTest
  | recovery
  | cover
  | order
deriving DecidableEq, Repr

/-- The phases of a homing (R91); `waiting` waits for the cover-closed event. -/
inductive HomingPhase where
  | waiting
  | search
  | read (indexWidth : Nat) (bits : List Bool)
  | park (code : Nat)
deriving DecidableEq, Repr

/-- A wheel homing under way or waiting (R55, R91). -/
structure Homing where
  use : HomingUse
  required : Option Nat
  phase : HomingPhase
deriving DecidableEq, Repr

/-- The wheel channel (R55, R90 to R93). -/
structure Wheel where
  state : WheelState := .unknown
  petal : Option Nat := none
  mounted : Option Nat := none
  target : Nat := 0
  /-- The direction of the rotation, forward toward increasing petal numbers (R90). -/
  forward : Bool := true
  timer : Timer := none
  homing : Option Homing := none
  /-- The number of the order that executed when the last homing began (R56; log 9). -/
  starter : Option Nat := none
  /-- The mounted wheel as it stood before the cover last opened (R93). -/
  before : Option Nat := none
  /-- The mounted wheel as the present event found it (R55). -/
  found : Option Nat := none
  /-- "For the wheel channel, homing lasts …" (R93), read by the law of R57. -/
  homingSpan : Bool := false
  /-- The span began with a wake's homing, so that a FLUSH ends it (R184). -/
  wakeSpan : Bool := false
  /-- A SELF_TEST homing has left the mounted wheel none (R56, R61). -/
  lostByTest : Bool := false
  /-- A recovery homing has failed, and the next waits for the cover-closed event (R61). -/
  recoveryFailed : Bool := false
deriving DecidableEq, Repr

/-- Platen states (R94). -/
inductive PlatenState where
  | idle
  | feeding
  | off
deriving DecidableEq, Repr

/-- The platen channel (R94, R95). -/
structure Platen where
  state : PlatenState := .idle
  position : VPos := 0
  remaining : Nat := 0
  forward : Bool := true
  timer : Timer := none
  knobCount : BitVec 14 := 0
  knobSeen : Bool := false
deriving DecidableEq, Repr

/-- The three lift positions (R96). -/
inductive LiftTarget where
  | view
  | print
  | correct
deriving DecidableEq, Repr

/-- Lift states (R96): held at a position, moving, or unknown. -/
inductive LiftState where
  | held (position : LiftTarget)
  | moving
  | unknown
deriving DecidableEq, Repr

/-- What a lift move belongs to (R77, R102). -/
inductive LiftUse where
  | order
  | viewTimer
  | fault
  | entry
  | resume
  | startUp
  | selfTest
  | deepOff
deriving DecidableEq, Repr

/-- The lift channel (R96). `viaView` marks the first leg of a move commanded while UNKNOWN. -/
structure Lift where
  state : LiftState := .unknown
  target : LiftTarget := .view
  viaView : Bool := false
  use : LiftUse := .order
  timer : Timer := none
deriving DecidableEq, Repr

/-- Hammer driver states (R97). -/
inductive HammerState where
  | ready
  | on
  | rest
  | stuck
  | off
deriving DecidableEq, Repr

/-- The hammer driver (R97). `pulse` holds the on-time or the rest that runs; `waitTimer` is the wait of a fire
commanded in STUCK. -/
structure Hammer where
  state : HammerState := .ready
  pulse : Timer := none
  waitTimer : Timer := none
deriving DecidableEq, Repr

/-- The input pins whose levels the part reads when it pleases (`spec/00_scope.md`, Pins): they belong to the
outside and outlive every reset. `flashSize` is the size code that the flash device answers with at the memory port, 0
when it does not answer (R195; log 67). -/
structure Pins where
  sensors : Levels
  home : Bool
  lsw1Closed : Bool
  lsw0Closed : Bool
  hammerHome : Bool
  flashSize : Half
deriving DecidableEq, Repr

/-! ## The correction memory (chapter 6) -/

/-- A correction record (R106). -/
structure Record where
  slot : Nat
  generation : Generation
  vertical : VPos
  horizontal : Nat
  glyph : Option Byte
  petal : Option Nat
  underlinePetal : Option Nat
  wheel : Nat
  width : Nat
  onTime : Nat
  fires : List Fire
  fired : List FireName
  lifted : List FireName
  word : Option WordId
deriving DecidableEq, Repr

/-- The correction memory: its records in strike-time order, oldest first, and the generation counter (R106, R110). -/
structure Memory where
  records : List Record := []
  generation : Generation := 0
deriving DecidableEq, Repr

/-! ## The spelling checker and the memory port (chapter 7) -/

/-- States of a word table entry (R131). -/
inductive WordState where
  | opened
  | pending
  | clean
  | suspect
  | accepted
  | skipped
  | unchecked
deriving DecidableEq, Repr

/-- A word table entry (R131). -/
structure WordEntry where
  id : WordId
  letters : List Nat
  overlong : Bool
  state : WordState
  epoch : Epoch
  vertical : VPos
  start : Nat
deriving DecidableEq, Repr

/-- How far a lookup has come (R143, R144). -/
inductive LookupPhase where
  | waiting
  | index
  | bucket
deriving DecidableEq, Repr

/-- A lookup (R143); a voided one carries no word id. -/
structure Lookup where
  word : Option WordId
  epoch : Epoch
  letters : List Nat
  phase : LookupPhase
deriving DecidableEq, Repr

/-- The spelling checker (R129 to R150). The last five fields are what the header gave (R139, R141). -/
structure Spelling where
  words : List WordEntry := []
  lastWord : WordId := 255
  user : List (List Nat) := []
  lookups : List Lookup := []
  dict : DictState := .probing
  bucketCount : Nat := 0
  wordCount : Nat := 0
  indexOffset : Nat := 0
  tableCount : Nat := 0
  tableOffset : Nat := 0
deriving DecidableEq, Repr

/-- Who asked for a flash read (R140). -/
inductive Requester where
  | startHeader
  | table (slot : Nat)
  | dictHeader
  | index
  | bucket
  | testHeader
deriving DecidableEq, Repr

/-- A flash read: an address and a number of bytes (R140). -/
structure FlashRead where
  address : Nat
  length : Nat
  asker : Requester
deriving DecidableEq, Repr

/-- The memory port reader (R140); the size code of the flash device (R195). -/
structure Port where
  current : Option FlashRead := none
  timer : Timer := none
  waiting : List FlashRead := []
  flashSize : Half := 0
deriving DecidableEq, Repr

/-! ## The display controller (chapter 8) -/

/-- The character of a display cell (R151). -/
inductive Shape where
  | code (c : Byte)
  | box
deriving DecidableEq, Repr

/-- Blink modes (R151). -/
inductive Blink where
  | steady
  | blink
  | cursor
deriving DecidableEq, Repr

/-- A display cell (R151). -/
structure DisplayCell where
  shape : Shape
  underline : Bool
  blink : Blink
deriving DecidableEq, Repr

/-- A display cell as sent to the module: row, column, fields (R151). -/
structure SentCell where
  row : Nat
  column : Nat
  cell : DisplayCell
deriving DecidableEq, Repr

/-- The message area (R158, R159). -/
inductive Message where
  | nothing
  | timed (text : List Byte)
  | fault (kind : FaultKind)
deriving DecidableEq, Repr

/-- The display controller (R151 to R163). `cells` is empty while the display is dark, when no cell is derived;
`sent` is what the last command sent to the module. `modulePhase` is the blink phase that the module works with, none while
dark, and `sentPhase` the one that the last command sent it, if any (R154; log 71). -/
structure Display where
  lit : Bool := false
  cells : List DisplayCell := []
  sent : List SentCell := []
  modulePhase : Option Bool := none
  sentPhase : Option Bool := none
  window : Nat := 0
  phaseOn : Bool := true
  blinkTimer : Timer := none
  message : Message := .nothing
  holdTimer : Timer := none
  override : Option (List Byte) := none
  overrideTimer : Timer := none
deriving DecidableEq, Repr

/-! ## The fault record (chapter 9) -/

/-- A slot of the fault record that holds a fault (R164). -/
structure FaultSlot where
  kind : FaultKind
  order : Option OrderName
  group : Nat
  target : Option (Nat × VPos)
  glyph : Option Byte
  afterHammer : Bool
  required : Option Nat
  count : Nat
  kinds : List FaultKind
deriving DecidableEq, Repr

/-- The fault record (R164). `wheelBefore` is "the mounted wheel id before the fault" of R55, and `named` the number of the
order that the P slot names (R55, R170; log 9). -/
structure FaultRecord where
  x : Option FaultSlot := none
  p : Option FaultSlot := none
  named : Option Nat := none
  wheelBefore : Option Nat := none
deriving DecidableEq, Repr

/-- The running self-test (R176): its group id, the step, how far the step has come, and the steps that have failed. -/
structure SelfTest where
  group : Nat
  step : Nat
  sub : Nat
  failed : List Nat
  /-- The carriage position before the test, or none if it was LOST. -/
  position : Option Nat
  /-- The mounted wheel id before the test (R55). -/
  wheel : Option Nat
deriving DecidableEq, Repr

/-! ## Power control (chapter 10) -/

/-- STANDBY or SLEEP as an entry (R181). -/
inductive Rest where
  | standby
  | sleep
deriving DecidableEq, Repr

/-- A homing part of a wake or a soft reset. -/
inductive Part where
  | running
  | waiting
  | done
deriving DecidableEq, Repr

/-- A wake in progress (R184): its two parts, the carriage position to return to, and the faults its end writes. -/
structure Wake where
  carriage : Part
  wheel : Part
  position : Nat
  faults : List (FaultKind × Option Nat)
deriving DecidableEq, Repr

/-- A soft reset's re-homing (R186). -/
structure Rehoming where
  carriage : Part
  wheel : Part
deriving DecidableEq, Repr

/-- The step of the start-up sequence (R185). -/
inductive StartUp where
  | header
  | tables
  | carriage
  | wheel
  | lift
deriving DecidableEq, Repr

/-- The way into DEEP_OFF after its OK reply (R182), and whether a WAKE has come meanwhile. -/
inductive DeepOff where
  | replying
  | lifting
deriving DecidableEq, Repr

/-- Power control (R179 to R186). The wake-in-progress mark is `wake` being held. -/
structure Power where
  state : PowerState := .starting
  timer : Timer := none
  /-- Whether the conditions of R180 held at the last look. -/
  conditions : Bool := false
  pendingEntry : Option Rest := none
  /-- An entry from RUN whose lift move runs (R181). -/
  entering : Option Rest := none
  wake : Option Wake := none
  startUp : Option StartUp := some .header
  softReset : Option Rehoming := none
  deepOff : Option DeepOff := none
  wakeAfterOff : Bool := false
deriving DecidableEq, Repr

/-! ## The whole part -/

/-- The JT-4620: every block of the block overview. `free` counts the open values drawn from Config (log 1). -/
structure Engine where
  link : Link := {}
  comp : Composition := {}
  set : Settings := {}
  esc : Escapement := {}
  slots : List WheelSlot := [{}, {}, {}, {}]
  seq : Sequencer := {}
  carriage : Carriage := {}
  wheel : Wheel := {}
  platen : Platen := {}
  lift : Lift := {}
  hammer : Hammer := {}
  levels : Levels
  pins : Pins
  memory : Memory := {}
  spell : Spelling := {}
  port : Port := {}
  display : Display := {}
  faults : FaultRecord := {}
  selfTest : Option SelfTest := none
  power : Power := {}
  free : Nat := 0
deriving DecidableEq, Repr

/-- The part with the commands that wait for it, first in, first out. -/
structure State extends Engine where
  pending : List Instr := []
deriving DecidableEq, Repr

/-- Reasons for a fault stop. The spec gives every command its effect in every state, so there is none. -/
inductive Fault where
deriving DecidableEq, Repr

/-- Reasons for a refusal. -/
inductive Refusal where
  /-- Raised by a dispatcher arm of a command without a meaning, of which there is none now. Safe: nothing can be
  proved of a step that is refused. -/
  | notModelled (mnemonic : String)
deriving DecidableEq, Repr

/-! ## Reset -/

/-- The lift's reading of its two switches (R96): `none` between positions. -/
def readSwitches (lsw1Closed lsw0Closed : Bool) : Option LiftTarget :=
  match lsw1Closed, lsw0Closed with
  | false, true => some .view
  | true, false => some .print
  | true, true => some .correct
  | false, false => none

/-- The lift state that a held reading gives (R96). -/
def heldLift : Option LiftTarget → LiftState
  | some p => .held p
  | none => .unknown

/-- Every block at its hard reset value (R5, R44, R46, R52, R62, R86, R104, R107, R128, R150, R163, R178, R179,
R188, R191), with the input pins as they stand: the sensors, the lift and the hammer are read from them
(R96, R97, R99). -/
def Engine.cold (pins : Pins) : Engine :=
  { levels := pins.sensors
    pins := pins
    lift := { state := heldLift (readSwitches pins.lsw1Closed pins.lsw0Closed) }
    hammer := { state := if pins.hammerHome then .ready else .stuck } }

/-- The pins at reset (log 10): paper present, cover closed, lever engaged, ribbon and tape not at their ends, the
lift at VIEW, the hammer home, the carriage off its home flag. -/
def Pins.atReset : Pins :=
  { sensors := { present := true, closed := true, engaged := true, ribbonEnd := false, tapeEnd := false }
    home := false
    lsw1Closed := false
    lsw0Closed := true
    hammerHome := true
    flashSize := Config.flashSize }

/-- The part right after a hard reset: every block at its hard reset value, and the first step of the start-up
sequence begun (R185): the SENSOR notice that names no sensor is on the line, and the header read has started. -/
def State.reset : State :=
  { Engine.cold Pins.atReset with
    link := { tx := some { frame := { typ := 0x86, payload := [0x00, 0x07] } } }
    port :=
      { current := some { address := 0, length := 15, asker := .startHeader }, timer := some 5000
        flashSize := Config.flashSize }
    pending := [] }

end Sys2Proof.Machine
end

