-- ==== Sys2Proof/Machine/Operands.lean ====
section
/-! DEFINITION. Operand forms: the codes of selectors, the byte order of the link, and the byte layouts of notices,
orders and fault slots (chapter 11, Layouts). Multi-byte fields go most significant byte first. -/

set_option Elab.async false

namespace Sys2Proof.Machine

/-- The low byte of a number. -/
def byteOf (n : Nat) : Byte := BitVec.ofNat 8 n

/-- A number as two bytes, most significant first. -/
def twoBytes (n : Nat) : List Byte := [byteOf (n / 256), byteOf n]

/-- A number as three bytes, most significant first. -/
def threeBytes (n : Nat) : List Byte := [byteOf (n / 65536), byteOf (n / 256), byteOf n]

/-- Two bytes as a number, most significant first. -/
def fromTwo (hi lo : Byte) : Nat := hi.toNat * 256 + lo.toNat

/-- Three bytes as a number, most significant first. -/
def fromThree (a b c : Byte) : Nat := a.toNat * 65536 + b.toNat * 256 + c.toNat

/-- Two bytes as a two-byte field. -/
def halfOf (hi lo : Byte) : Half := BitVec.ofNat 16 (fromTwo hi lo)

/-- One bit of a byte as a number 0 or 1. -/
def bitOf (b : Bool) : Nat := if b then 1 else 0

/-- A wheel id, group id or required id, with 00h for none. -/
def idByte (id : Option Nat) : Byte := byteOf (id.getD 0)

/-- A glyph field, with 00h for none. -/
def glyphByte (g : Option Byte) : Byte := g.getD 0

/-! ## Selector codes of SET and of the context forms (R193) -/

/-- MODE: 00h DIRECT, 01h LINE. -/
def modeOfCode : Nat → Option Mode
  | 0 => some .direct
  | 1 => some .line
  | _ => none

/-- The code of a mode. -/
def Mode.code : Mode → Nat
  | .direct => 0
  | .line => 1

/-- PITCH: 00h AUTO, 01h 10, 02h 12, 03h 15, 04h PS. -/
def pitchOfCode : Nat → Option Pitch
  | 0 => some .auto
  | 1 => some .p10
  | 2 => some .p12
  | 3 => some .p15
  | 4 => some .ps
  | _ => none

/-- The code of a pitch setting. -/
def Pitch.code : Pitch → Nat
  | .auto => 0
  | .p10 => 1
  | .p12 => 2
  | .p15 => 3
  | .ps => 4

/-- ALIGN: 00h LEFT, 01h RIGHT, 02h CENTER, 03h JUSTIFY. -/
def alignOfCode : Nat → Option Align
  | 0 => some .left
  | 1 => some .right
  | 2 => some .center
  | 3 => some .justify
  | _ => none

/-- The code of an alignment. -/
def Align.code : Align → Nat
  | .left => 0
  | .right => 1
  | .center => 2
  | .justify => 3

/-- DISTRIBUTE: 00h LEADING, 01h TRAILING, 02h SPREAD, 03h TRUNCATE. -/
def distributeOfCode : Nat → Option Distribute
  | 0 => some .leading
  | 1 => some .trailing
  | 2 => some .spread
  | 3 => some .truncate
  | _ => none

/-- The code of a distribution. -/
def Distribute.code : Distribute → Nat
  | .leading => 0
  | .trailing => 1
  | .spread => 2
  | .truncate => 3

/-- SPELL: 00h OFF, 01h FLAG, 02h HOLD. -/
def spellOfCode : Nat → Option SpellSetting
  | 0 => some .off
  | 1 => some .flag
  | 2 => some .hold
  | _ => none

/-- The code of a spelling setting. -/
def SpellSetting.code : SpellSetting → Nat
  | .off => 0
  | .flag => 1
  | .hold => 2

/-- BIDI: 00h OFF, 01h ON. -/
def bidiOfCode : Nat → Option Bool
  | 0 => some false
  | 1 => some true
  | _ => none

/-- SPACING in half lines 02h..06h, as platen steps (R25, R193). -/
def spacingOfCode (n : Nat) : Option Nat :=
  if 2 ≤ n ∧ n ≤ 6 then some (4 * n) else none

/-- A pitch class of a wheel table: 0Ah 10, 0Ch 12, 0Fh 15, 00h PS. -/
def pitchClassOfCode (b : Byte) : Option PitchClass :=
  match b.toNat with
  | 0x0A => some .p10
  | 0x0C => some .p12
  | 0x0F => some .p15
  | 0x00 => some .ps
  | _ => none

/-! ## Shared codes of messages -/

/-- Power state codes. -/
def PowerState.code : PowerState → Byte
  | .starting => 0x00
  | .run => 0x01
  | .standby => 0x02
  | .sleep => 0x03
  | .deepOff => 0x04

/-- Sequencer state codes. -/
def SeqState.code : SeqState → Byte
  | .stopped => 0x00
  | .idle => 0x01
  | .running => 0x02
  | .paused => 0x03
  | .faulted => 0x04

/-- Release stage codes. -/
def StageState.code : StageState → Byte
  | .empty => 0x00
  | .filling => 0x01
  | .held => 0x02

/-- Dictionary state codes. -/
def DictState.code : DictState → Byte
  | .absent => 0x00
  | .probing => 0x01
  | .ready => 0x02
  | .failed => 0x03

/-- Order kind codes, 00h for none. -/
def orderCode : Option OrderName → Nat
  | none => 0
  | some .strike => 1
  | some .lift => 2
  | some .move => 3
  | some .ret => 4
  | some .feed => 5
  | some .wheelChange => 6
  | some .paperLoad => 7
  | some .paperEject => 8

/-- Fault kind codes 1..14. -/
def FaultKind.code : FaultKind → Nat
  | .carriageStall => 1
  | .wheelStall => 2
  | .wheelHomeFail => 3
  | .platenStall => 4
  | .liftStall => 5
  | .hammerStuck => 6
  | .coverOpen => 7
  | .wheelMismatch => 8
  | .noWheelTable => 9
  | .absentPetal => 10
  | .liftWheel => 11
  | .paperOut => 12
  | .ribbonEnd => 13
  | .tapeEnd => 14

/-- The further kinds as two bytes: bit k − 1 set for fault kind k. -/
def furtherBytes (kinds : List FaultKind) : List Byte :=
  twoBytes ((List.range 14).foldl (fun acc k => if kinds.any (fun f => f.code == k + 1) then acc + 2 ^ k else acc) 0)

/-- The sensor levels byte: bit 0 PRESENT, bit 1 CLOSED, bit 2 ENGAGED, bit 3 ribbon END, bit 4 tape END. -/
def Levels.byte (l : Levels) : Byte :=
  byteOf (bitOf l.present + 2 * bitOf l.closed + 4 * bitOf l.engaged + 8 * bitOf l.ribbonEnd + 16 * bitOf l.tapeEnd)

/-- BELL reason codes. -/
def Bell.code : Bell → Byte
  | .approach => 0x01
  | .margin => 0x02
  | .lineFull => 0x03
  | .absent => 0x04
  | .noWheel => 0x05
  | .lineOpen => 0x06
  | .wheel => 0x07
  | .notRemembered => 0x08

/-- Group kind codes of DONE. -/
def GroupKind.code : GroupKind → Byte
  | .line => 0x01
  | .correction => 0x02
  | .wheelChange => 0x03
  | .paper => 0x04
  | .selfTest => 0x05

/-- Outcome codes of DONE. -/
def DoneOutcome.code : DoneOutcome → Byte
  | .complete => 0x00
  | .stale => 0x01
  | .flushed => 0x02
  | .aborted => 0x03

/-- Cause codes of WHEEL. -/
def HomingCause.code : HomingCause → Byte
  | .start => 0x01
  | .reset => 0x02
  | .change => 0x03
  | .wake => 0x04
  | .resume => 0x05
  | .selfTest => 0x06
  | .recovery => 0x07

/-- Outcome codes of WHEEL. -/
def HomingOutcome.code : HomingOutcome → Byte
  | .mounted => 0x01
  | .adopted => 0x02
  | .mismatch => 0x03
  | .failed => 0x04

/-- Sensor codes of SENSOR, 00h for none. -/
def sensorCode : Option Sensor → Byte
  | none => 0x00
  | some .paper => 0x01
  | some .cover => 0x02
  | some .lever => 0x03
  | some .ribbon => 0x04
  | some .tape => 0x05

/-- Reason codes of LINK. -/
def LinkReason.code : LinkReason → Byte
  | .byteError => 0x01
  | .timeout => 0x02
  | .length => 0x03
  | .overrun => 0x04

/-- Slot codes of FAULT. -/
def SlotName.code : SlotName → Byte
  | .x => 0x01
  | .p => 0x02

/-- The order kind byte with bit 7 for the after-hammer flag. -/
def orderFlagByte (order : Option OrderName) (afterHammer : Bool) : Byte :=
  byteOf (orderCode order + 128 * bitOf afterHammer)

/-- A target as four bytes, horizontal then vertical, zeros when absent. -/
def targetBytes : Option (Nat × VPos) → List Byte
  | none => [0, 0, 0, 0]
  | some (h, v) => twoBytes h ++ twoBytes v.toNat

/-- The frame of a notice (chapter 11, Notices). -/
def Notice.frame : Notice → Frame
  | .bell r => ⟨0x81, [r.code]⟩
  | .done g k o n codes => ⟨0x82, [byteOf g, k.code, o.code, byteOf n] ++ codes.map byteOf⟩
  | .fault slot kind order after group glyph target required =>
    ⟨0x83, [slot.code, byteOf kind.code, orderFlagByte order after, byteOf group, glyphByte glyph] ++
      targetBytes target ++ [idByte required]⟩
  | .spellWord id v start letters =>
    ⟨0x84, [0x01, id] ++ twoBytes v.toNat ++ twoBytes start ++ [byteOf letters.length] ++ letters.map byteOf⟩
  | .spellDict st words buckets => ⟨0x84, [0x02, st.code] ++ threeBytes words ++ twoBytes buckets⟩
  | .wheel cause outcome code required => ⟨0x85, [cause.code, outcome.code, idByte code, idByte required]⟩
  | .sensor named levels => ⟨0x86, [sensorCode named, levels.byte]⟩
  | .power st => ⟨0x87, [st.code]⟩
  | .link r => ⟨0x88, [r.code]⟩
  | .overflow n => ⟨0x89, [byteOf n]⟩

/-! ## Status codes of replies (R189) -/

/-- The status codes. -/
inductive Status where
  | ok
  | clamped
  | busy
  | full
  | state
  | absent
  | mismatch
  | malformed
  | unknown
deriving DecidableEq, Repr

/-- The byte of a status code. -/
def Status.byte : Status → Byte
  | .ok => 0x00
  | .clamped => 0x01
  | .busy => 0x02
  | .full => 0x03
  | .state => 0x04
  | .absent => 0x05
  | .mismatch => 0x06
  | .malformed => 0x07
  | .unknown => 0x08

/-- OK, or CLAMPED when clamping changed the value. -/
def okOrClamped (clamped : Bool) : Status := if clamped then .clamped else .ok

/-- A value brought into a range. -/
def clampTo (lo hi n : Nat) : Nat := max lo (min hi n)

end Sys2Proof.Machine
end

