-- ==== Sys2Proof/Machine/Ops.lean ====
section
/-! DEFINITION. Shared operations over the link and the display's message area: the notice queue, the transmitter,
the reply list (R189 to R191), and the texts that a notice or a fault places (R158, R159). -/

set_option Elab.async false

namespace Sys2Proof.Machine

/-- A command changes the blocks and leaves the commands behind it in their queue. -/
def State.on (f : Engine → Engine) (s : State) : State := { s with toEngine := f s.toEngine }

/-! ## The transmitter and the notice queue -/

/-- A frame boundary or an idle line: the oldest reply starts, failing that the oldest notice (R190). -/
def Link.pump (l : Link) : Link :=
  match l.tx with
  | some _ => l
  | none =>
    match l.replies, l.notices with
    | r :: rs, _ => { l with tx := some r, replies := rs }
    | [], n :: ns => { l with tx := some { frame := n.frame }, notices := ns }
    | [], [] => l

/-- The notice queue takes an offered notice (R191): behind an OVERFLOW it is dropped and counted; into fewer than
15 entries it joins; at 15 OVERFLOW joins in its place. -/
def takeNotice (n : Notice) (q : List Notice) : List Notice :=
  match q.getLast? with
  | some (.overflow k) => q.dropLast ++ [.overflow (min 255 (k + 1))]
  | _ => if q.length < 15 then q ++ [n] else q ++ [.overflow 1]

/-- The code of a character of a text. -/
def chars (cs : List Char) : List Byte := cs.map fun c => byteOf c.toNat

/-- A wheel id in three digits with leading zeros. -/
def threeDigits (n : Nat) : List Byte :=
  [byteOf (48 + n / 100 % 10), byteOf (48 + n / 10 % 10), byteOf (48 + n % 10)]

/-- The name of a power state as the message area shows it (R158). -/
def PowerState.text : PowerState → List Byte
  | .starting => chars ['S', 'T', 'A', 'R', 'T', 'I', 'N', 'G']
  | .run => chars ['R', 'U', 'N']
  | .standby => chars ['S', 'T', 'A', 'N', 'D', 'B', 'Y']
  | .sleep => chars ['S', 'L', 'E', 'E', 'P']
  | .deepOff => chars ['D', 'E', 'E', 'P', '_', 'O', 'F', 'F']

/-- The text of a bell (R158). -/
def Bell.text : Bell → List Byte
  | .approach => chars ['N', 'E', 'A', 'R', ' ', 'M', 'A', 'R', 'G', 'I', 'N']
  | .margin => chars ['A', 'T', ' ', 'M', 'A', 'R', 'G', 'I', 'N']
  | .lineFull => chars ['L', 'I', 'N', 'E', ' ', 'F', 'U', 'L', 'L']
  | .absent => chars ['N', 'O', ' ', 'C', 'H', 'A', 'R', 'A', 'C', 'T', 'E', 'R']
  | .noWheel => chars ['N', 'O', ' ', 'T', 'A', 'B', 'L', 'E']
  | .lineOpen => chars ['L', 'I', 'N', 'E', ' ', 'O', 'P', 'E', 'N']
  | .wheel => chars ['O', 'T', 'H', 'E', 'R', ' ', 'W', 'H', 'E', 'E', 'L']
  | .notRemembered => chars ['C', 'A', 'N', 'N', 'O', 'T', ' ', 'L', 'I', 'F', 'T']

/-- The text of a wheel homing's outcome (R158). -/
def wheelText (outcome : HomingOutcome) (code : Option Nat) : List Byte :=
  match outcome with
  | .mounted => chars ['W'] ++ threeDigits (code.getD 0) ++ chars [' ', 'M', 'O', 'U', 'N', 'T', 'E', 'D']
  | .adopted => chars ['W'] ++ threeDigits (code.getD 0) ++ chars [' ', 'A', 'D', 'O', 'P', 'T', 'E', 'D']
  | .mismatch => chars ['W'] ++ threeDigits (code.getD 0) ++ chars [' ', 'M', 'I', 'S', 'M', 'A', 'T', 'C', 'H']
  | .failed => chars ['W', 'H', 'E', 'E', 'L', ' ', 'F', 'A', 'I', 'L', 'E', 'D']

/-- The timed text that a notice makes (R158). -/
def Notice.timedText : Notice → Option (List Byte)
  | .bell r => some r.text
  | .wheel _ outcome code _ => some (wheelText outcome code)
  | .power st => some st.text
  | _ => none

/-- A timed text reaches the message area: shown for 2 s, or discarded against a fault text (R158). -/
def Display.showText (t : Option (List Byte)) (d : Display) : Display :=
  match t, d.message with
  | none, _ => d
  | some _, .fault _ => d
  | some t, _ => { d with message := .timed t, holdTimer := some 2000000 }

/-- A block raises a notice (R191). None is raised in DEEP_OFF. Its text is made at the same event (R158). -/
def Engine.offer (n : Notice) (e : Engine) : Engine :=
  if e.power.state = .deepOff then e
  else
    { e with
      link := Link.pump { e.link with notices := takeNotice n e.link.notices }
      display := e.display.showText n.timedText }

/-- Several notices of one event, in order. -/
def Engine.offerAll (ns : List Notice) (e : Engine) : Engine :=
  ns.foldl (fun e n => e.offer n) e

/-- A BELL notice. -/
def Engine.bell (r : Bell) (e : Engine) : Engine := e.offer (.bell r)

/-- A reply joins the reply list, and starts at once on an idle line (R189, R190). -/
def Engine.joinReply (typ : Byte) (payload : List Byte) (closing : Bool) (e : Engine) : Engine :=
  let reply : Outgoing := { frame := ⟨typ, payload⟩, closing := closing }
  { e with link := Link.pump { e.link with replies := e.link.replies ++ [reply] } }

/-- A line that looks busy, behind which a request's notices wait for its reply. -/
def busyLine : Outgoing := { frame := ⟨0, []⟩ }

/-- The reply and the effects of a request that finds room in the reply list. When the request makes both a reply
and a notice available at an idle line, either may be taken first (R190): `Config.noticeFirst` chooses (log 5). -/
def Engine.reply (typ : Byte) (op : Engine → List Byte × Engine) (e : Engine) : Engine :=
  let early := op e
  if e.link.tx.isNone && early.2.link.tx.isSome && !Config.noticeFirst e.free then
    let late := op { e with link := { e.link with tx := some busyLine } }
    let e' : Engine := { late.2 with link := { late.2.link with tx := none }, free := late.2.free + 1 }
    e'.joinReply typ late.1 false
  else if e.link.tx.isNone && early.2.link.tx.isSome then
    Engine.joinReply typ early.1 false { early.2 with free := early.2.free + 1 }
  else Engine.joinReply typ early.1 false early.2

/-- A completed request frame meets the link controller (R189): with 8 replies waiting it is discarded with
LINK(OVERRUN); a payload length outside the catalogue's range is MALFORMED; in DEEP_OFF, or on the way there, it is
refused STATE unless it is one that is answered there (R182, R192). -/
def Engine.checked (typ : Byte) (lengthOk : Bool) (refusal : Status → List Byte) (takenOff : Bool)
    (op : Engine → Engine) (e : Engine) : Engine :=
  if 8 ≤ e.link.replies.length then e.offer (.link .overrun)
  else if !lengthOk then e.joinReply (typ + 0x40) (refusal .malformed) false
  else if (e.power.state = .deepOff ∨ e.power.deepOff.isSome) ∧ takenOff = false then
    e.joinReply (typ + 0x40) (refusal .state) false
  else op e

/-- A request that passes the checks, acts and is answered (R189). -/
def Engine.answer (typ : Byte) (lengthOk : Bool) (refusal : Status → List Byte) (takenOff : Bool)
    (op : Engine → List Byte × Engine) (e : Engine) : Engine :=
  e.checked typ lengthOk refusal takenOff fun e => e.reply (typ + 0x40) op

/-- A refused reply carries the status byte alone (R189). -/
def plainRefusal (s : Status) : List Byte := [s.byte]

/-- The KEY reply always carries its count of entries accepted (R189). -/
def keyRefusal (s : Status) : List Byte := [s.byte, 0]

end Sys2Proof.Machine
end

