-- ==== Sys2Proof/Machine/Wheels.lean ====
section
/-! DEFINITION. Wheel tables, glyph lookup, pitch, cell widths, hammer on-times, and the fields of a STRIKE
(chapter 3 and R27, R28, R39, R40, R63). -/

set_option Elab.async false

namespace Sys2Proof.Machine

/-! ## Wheel tables (R46 to R50) -/

/-- A glyph entry as stored: a petal above 95 is ABSENT, units clamped into 2..8, the class into 0..3 (R46, R48, R50). -/
def entryOf (b : GlyphBytes) : GlyphEntry :=
  { petal := if b.petal.toNat ≤ 95 then some b.petal.toNat else none
    units := clampTo 2 8 b.units.toNat
    cls := min 3 b.cls.toNat }

/-- Whether storing an entry clamps one of its values (R50). -/
def entryClamped (b : GlyphBytes) : Bool :=
  b.units.toNat < 2 || 8 < b.units.toNat || 3 < b.cls.toNat

/-- The place of a glyph code 21h..7Fh in the entries of a slot (R46). -/
def glyphIndex (code : Byte) : Nat := code.toNat - 0x21

/-- Whether a byte is a glyph code. -/
def isGlyph (code : Byte) : Bool := 0x21 ≤ code.toNat && code.toNat ≤ 0x7F

/-- The petal that a list of entries gives a glyph. -/
def petalOf (entries : List GlyphEntry) (code : Byte) : Option Nat :=
  (entries[glyphIndex code]?).bind (·.petal)

/-- An underline code as stored: none outside 21h..7Fh, and none when its glyph is ABSENT (R46). -/
def storedUnderline (entries : List GlyphEntry) (code : Option Byte) : Option Byte :=
  code.bind fun c => if isGlyph c && (petalOf entries c).isSome then some c else none

/-- A slot that takes its last entries becomes READY: 95 entries stand, entry 95 is ignored (R46, R50). -/
def WheelSlot.finish (s : WheelSlot) : WheelSlot :=
  let entries := s.entries.take 95
  { s with state := .ready, entries := entries, underline := storedUnderline entries s.underline }

/-- The bytes of glyph entries, three by three. -/
def glyphEntries : List Byte → List GlyphBytes
  | p :: u :: c :: rest => ⟨p, u, c⟩ :: glyphEntries rest
  | _ => []

/-- A wheel table of the flash: READY, or EMPTY with an invalid wheel id or pitch class (R48). -/
def slotOfTable (bytes : List Byte) : WheelSlot :=
  match bytes with
  | id :: cls :: space :: under :: rest =>
    match pitchClassOfCode cls with
    | none => {}
    | some p =>
      if id = 0 ∨ id = 255 then {}
      else WheelSlot.finish
        { state := .empty, id := id.toNat, pitch := p, space := clampTo 2 8 space.toNat, underline := some under,
          entries := (glyphEntries rest).map entryOf }
  | _ => {}

/-! ## Glyph lookup (R47) -/

/-- The slot that a lookup of a wheel id selects: the lowest-numbered READY one. -/
def readySlot (slots : List WheelSlot) (wheel : Option Nat) : Option WheelSlot :=
  wheel.bind fun id => slots.find? fun s => s.state = .ready && s.id = id

/-- The three results of a glyph lookup (R47). -/
inductive Look where
  | noWheel
  | absent
  | found (petal : Nat) (units : Nat) (cls : Nat) (slot : WheelSlot)
deriving DecidableEq, Repr

/-- A glyph lookup (R47). -/
def lookGlyph (slots : List WheelSlot) (wheel : Option Nat) (code : Byte) : Look :=
  match readySlot slots wheel with
  | none => .noWheel
  | some s =>
    match s.entries[glyphIndex code]? with
    | none => .absent
    | some g =>
      match g.petal with
      | none => .absent
      | some p => .found p g.units g.cls s

/-- The entry of a slot's underline glyph (R46). -/
def WheelSlot.underlineEntry (s : WheelSlot) : Option GlyphEntry :=
  s.underline.bind fun c => s.entries[glyphIndex c]?

/-- A slot's underline petal (R46). -/
def WheelSlot.underlinePetal (s : WheelSlot) : Option Nat := s.underlineEntry.bind (·.petal)

/-! ## Pitch and widths (R27, R28) -/

/-- The effective pitch of R28. -/
def effectivePitch (setting : Pitch) (cls : PitchClass) : PitchClass :=
  match setting with
  | .auto => cls
  | .p10 => .p10
  | .p12 => .p12
  | .p15 => .p15
  | .ps => cls

/-- The width of a fixed pitch, or of a number of width units under PS (R27). -/
def pitchWidth (p : PitchClass) (units : Nat) : Nat :=
  match p with
  | .p10 => 12
  | .p12 => 10
  | .p15 => 8
  | .ps => 2 * units

/-- The width of a glyph of a slot (R27). -/
def glyphWidth (setting : Pitch) (s : WheelSlot) (units : Nat) : Nat :=
  pitchWidth (effectivePitch setting s.pitch) units

/-- The space width s of a slot (R27). -/
def spaceWidth (setting : Pitch) (s : WheelSlot) : Nat := glyphWidth setting s s.space

/-- The default distance of BACKSPACE (R12, R27). -/
def backDistance (setting : Pitch) (slot : Option WheelSlot) : Nat :=
  match slot with
  | some s => spaceWidth setting s
  | none =>
    match setting with
    | .p10 => 12
    | .p12 => 10
    | .p15 => 8
    | .auto => 12
    | .ps => 12

/-- The width u of the underline glyph of a lookup's slot, when it has one (R40). -/
def underWidth (setting : Pitch) (slot : Option WheelSlot) : Option Nat :=
  slot.bind fun s => s.underlineEntry.map fun g => glyphWidth setting s g.units

/-! ## Impression (R52 to R54) -/

/-- An entry of the energy table (R52). -/
def Settings.onTime (set : Settings) (cls : Nat) : Nat :=
  (set.energy.getD cls []).getD (set.impression - 1) 0

/-- The energy table with one entry changed (R52). -/
def setEnergyEntry (table : List (List Nat)) (cls setting onTime : Nat) : List (List Nat) :=
  table.set cls ((table.getD cls []).set (setting - 1) onTime)

/-- The lift on-time (R54). -/
def liftOnTime (onTime : Nat) : Nat := min 2000 (onTime + 200)

/-! ## The fields of a STRIKE (R39, R40, R53, R63) -/

/-- The fire list of a STRIKE (R63). -/
def fireList (x w u : Nat) (glyph : Option Byte) (petal under : Option Nat) (bold underline : Bool) : List Fire :=
  (if glyph.isSome then [⟨.glyph, x, petal⟩] else []) ++
  (if glyph.isSome && bold then [⟨.shadow, x + 1, petal⟩] else []) ++
  (if underline && under.isSome then
    ⟨.under1, x, under⟩ :: (if u < w then [⟨.under2, x + w - u, under⟩] else []) else [])

/-- The extra fields of the STRIKE of a cell, resolved against the composition wheel's slot (R53). A lookup that
fails leaves the petal absent and takes class 0. `u` is the underline width where it was fixed before (R40; log 29). -/
def strikeFields (set : Settings) (slots : List WheelSlot) (wheel : Option Nat) (x w : Nat) (u : Option Nat)
    (glyph : Option Byte) (bold underline : Bool) (word : Option WordId) : StrikeFields :=
  let slot := readySlot slots wheel
  let under := slot.bind (·.underlinePetal)
  let u := (u.or (underWidth set.pitch slot)).getD 0
  let (petal, cls) : Option Nat × Nat := match glyph with
    | some g =>
      match lookGlyph slots wheel g with
      | .found p _ c _ => (some p, c)
      | _ => (none, 0)
    | none =>
      match slot.bind (·.underlineEntry) with
      | some g => (none, g.cls)
      | none => (none, 0)
  { glyph := glyph, petal := petal, underlinePetal := under, width := w, onTime := set.onTime cls
    bold := bold, underline := underline, word := word
    fires := fireList x w u glyph petal under bold underline }

end Sys2Proof.Machine
end

