-- ==== Sys2Proof/Machine/Flags.lean ====
section
/-! DEFINITION. The escapement calculator: the release computation, the line flags, and the byte of the status
record that reports them (R29 to R36, R43, R44). -/

set_option Elab.async false

namespace Sys2Proof.Machine

/-- A plain space cell (R29). -/
def Cell.plainSpace (c : Cell) : Bool := c.content = .space

/-- The line without the plain spaces before its first and after its last printing cell (R29). -/
def trimLine (cells : List Cell) : List Cell :=
  ((cells.dropWhile (·.plainSpace)).reverse.dropWhile (·.plainSpace)).reverse

/-- The natural width W (R30). -/
def naturalWidth (cells : List Cell) : Nat := (cells.map (·.width)).sum

/-- The widths of the gaps, from left to right (R29). -/
def gapWidths (cells : List Cell) : List Nat := (cells.filter (·.plainSpace)).map (·.width)

/-- The gap unit s: the width of the narrowest gap (R30). -/
def gapUnit (cells : List Cell) : Nat :=
  match gapWidths cells with
  | [] => 0
  | g :: gs => gs.foldl min g

/-- The share d of gap i of G, with remainder r (R35). Gaps count from 1. -/
def gapShare (d : Distribute) (i r g : Nat) : Nat :=
  match d with
  | .leading => if i ≤ r then 1 else 0
  | .trailing => if g < i + r then 1 else 0
  | .spread => i * r / g - (i - 1) * r / g
  | .truncate => 0

/-- Cells placed one after the other from a start; gap i is widened by `extra i` (R35, R36). -/
def placeCells (extra : Nat → Nat) : Nat → Nat → List Cell → List Cell
  | _, _, [] => []
  | x, i, c :: cs =>
    if c.plainSpace then
      { c with start := x, width := c.width + extra (i + 1) } :: placeCells extra (x + c.width + extra (i + 1)) (i + 1) cs
    else { c with start := x } :: placeCells extra (x + c.width) i cs

/-- A placed line: its cells before R32, and its flags. -/
structure Placed where
  cells : List Cell
  flags : LineFlags
deriving DecidableEq, Repr

/-- Whether JUSTIFY applies (R33). -/
def justifies (align : Align) (final : Bool) (gaps : Nat) (fits : Bool) : Bool :=
  align = .justify && !final && 0 < gaps && fits

/-- The release computation of R29 to R36 over the UNRELEASED cells, before the end of travel is looked at. -/
def placeLine (set : Settings) (final : Bool) (cells : List Cell) : Placed :=
  let line := trimLine cells
  let m := set.right - set.left
  let w := naturalWidth line
  let g := (gapWidths line).length
  if line = [] then { cells := [], flags := {} }
  else if m < w then { cells := placeCells (fun _ => 0) set.left 0 line, flags := { overset := true } }
  else
    let e := m - w
    if justifies set.align final g true then
      let limit := 3 * gapUnit line
      let loose := decide (limit < e / g)
      let q := if loose then limit else e / g
      let r := if loose then 0 else e % g
      { cells := placeCells (fun i => q + gapShare set.distribute i r g) set.left 0 line
        flags := { inexact := r ≠ 0, loose := loose } }
    else
      let start := match set.align with
        | .left => set.left
        | .right => set.left + e
        | .center => set.left + e / 2
        | .justify => set.left
      { cells := placeCells (fun _ => 0) start 0 line, flags := {} }

/-- The cells that end within the travel: from the first one that passes 1599 on, all are dropped (R32). -/
def withinTravel (cells : List Cell) : List Cell :=
  cells.takeWhile fun c => decide (c.start + c.width ≤ 1599)

/-- The finished placement: what is kept, what is dropped, and the flags (R31 to R36). -/
def finishLine (p : Placed) : List Cell × List Cell × LineFlags :=
  let kept := withinTravel p.cells
  let dropped := p.cells.drop kept.length
  (kept, dropped, if dropped = [] then p.flags else { p.flags with overset := true })

/-- The union of two sets of flags (R44). -/
def LineFlags.union (a b : LineFlags) : LineFlags :=
  { inexact := a.inexact || b.inexact, loose := a.loose || b.loose, overset := a.overset || b.overset }

/-- A release replaces the current flags and adds to the accrued ones (R43, R44). -/
def Escapement.release (f : LineFlags) (e : Escapement) : Escapement :=
  { current := f, accrued := e.accrued.union f }

/-- Three flags in bits 0..2: INEXACT, LOOSE, OVERSET. -/
def LineFlags.bits (f : LineFlags) : Nat := bitOf f.inexact + 2 * bitOf f.loose + 4 * bitOf f.overset

/-- The flags byte of the status record: current in bits 0..2, accrued in bits 4..6 (layouts). -/
def Escapement.byte (e : Escapement) : Byte := byteOf (e.current.bits + 16 * e.accrued.bits)

end Sys2Proof.Machine
end

