-- ==== Sys2Proof/Machine/Records.lean ====
section
/-! DEFINITION. The correction memory: adding, updating, evicting and emptying records, the line generation, and the
references that a removal clears (R73, R74, R106 to R112). -/

set_option Elab.async false

namespace Sys2Proof.Machine

/-- The record in a slot. -/
def Memory.record (m : Memory) (slot : Nat) : Option Record := m.records.find? fun r => r.slot = slot

/-- The lowest-numbered slot that is free, looked for from `n` on. -/
def lowestFree (used : List Nat) : Nat → Nat → Nat
  | 0, n => n
  | fuel + 1, n => if n ∈ used then lowestFree used fuel (n + 1) else n

/-- The slot that a new record takes (R107). -/
def Memory.freeSlot (m : Memory) : Nat := lowestFree (m.records.map (·.slot)) 512 0

/-- The order whose record a slot holds. -/
def recordOwner (orders : List Order) (slot : Nat) : Option Order := orders.find? fun o => o.record = some slot

/-- What is left of a LIFT's reference to a removed record: a LIFT of an order that is still to complete waits for it
(R120), any other has nothing (R111). -/
def lostRef (orders : List Order) (slot : Nat) : LiftRef :=
  match recordOwner orders slot with
  | some o => .emptied o.number
  | none => .gone

/-- An order after the removal of records: a LIFT loses its reference, and its preparation with it, a STRIKE its record
(R111, R120). The executing LIFT runs on (R74). `orders` are the orders as the removal finds them. -/
def Order.forget (orders : List Order) (slots : List Nat) (o : Order) : Order :=
  let o := match o.record with
    | some s => if s ∈ slots then { o with record := none } else o
    | none => o
  match o.kind with
  | .lift (.record s) =>
    if s ∈ slots then
      match lostRef orders s with
      | .emptied n =>
        if o.state = .executing then { o with kind := .lift .gone }
        else { o with kind := .lift (.emptied n), state := .queued, held := none, heldWritten := false }
      | r => { o with kind := .lift r }
    else o
  | _ => o

/-- A cell after the removal of records: ON_PAPER without one (R111). -/
def Cell.forget (slots : List Nat) (c : Cell) : Cell :=
  match c.origin with
  | .onPaper (some s) => if s ∈ slots then { c with origin := .onPaper none } else c
  | _ => c

/-- Every reference to the slots is cleared (R111). -/
def Engine.forget (slots : List Nat) (e : Engine) : Engine :=
  if slots = [] then e
  else
    { e with
      seq := { e.seq with
        queue := e.seq.queue.map (·.forget e.seq.queue slots), stage := e.seq.stage.map (·.forget e.seq.queue slots) }
      comp := { e.comp with line := e.comp.line.map (·.forget slots) } }

/-- The removal of the records that a test selects (R111). -/
def Engine.removeRecords (gone : Record → Bool) (e : Engine) : Engine :=
  let e' : Engine := { e with memory := { e.memory with records := e.memory.records.filter fun r => !gone r } }
  e'.forget ((e.memory.records.filter gone).map (·.slot))

/-- A paper disturbance empties the memory; the counter keeps its value (R101, R112). -/
def Engine.emptyMemory (e : Engine) : Engine := e.removeRecords fun _ => true

/-- With every slot taken, the oldest record is evicted (R107, R108). -/
def Engine.makeRoom (e : Engine) : Engine :=
  match e.memory.records with
  | r :: _ => if 512 ≤ e.memory.records.length then e.removeRecords fun s => s.slot = r.slot else e
  | [] => e

/-- The line generation advances, and the records three behind are evicted (R110). -/
def Engine.advanceGeneration (e : Engine) : Engine :=
  let g := e.memory.generation + 1
  let e' : Engine := { e with memory := { e.memory with generation := g } }
  e'.removeRecords fun r => decide (3 ≤ (g - r.generation).toNat)

/-- The binding of a LIFT to an order becomes a reference to the order's new record (R120). -/
def Order.bind (number slot : Nat) (o : Order) : Order :=
  match o.kind with
  | .lift (.bound n) => if n = number then { o with kind := .lift (.record slot) } else o
  | _ => o

/-- The record that a STRIKE's first fire adds (R73, R106, R108). -/
def Engine.newRecord (o : Order) (f : StrikeFields) (name : FireName) (e : Engine) : Record :=
  { slot := e.memory.freeSlot, generation := e.memory.generation, vertical := e.platen.position
    horizontal := o.horizontal, glyph := f.glyph, petal := f.petal, underlinePetal := f.underlinePetal
    wheel := e.wheel.mounted.getD 0, width := f.width, onTime := f.onTime, fires := f.fires
    fired := [name], lifted := [], word := f.word }

/-- An order after a fire of its own: the fire made, and the after-hammer mark (R73, R167). -/
def Order.fire (name : FireName) (o : Order) : Order :=
  { o with fired := o.fired ++ [name], afterHammer := true }

/-- The orders of the queue with the one of a number changed. -/
def Engine.editOrder (number : Nat) (f : Order → Order) (e : Engine) : Engine :=
  { e with seq := { e.seq with queue := e.seq.queue.map fun o => if o.number = number then f o else o } }

/-- The first fire event of a STRIKE: a record joins the memory, and the LIFT bound to the order finds it
(R73, R108, R120). -/
def Engine.firstFire (o : Order) (f : StrikeFields) (name : FireName) (e : Engine) : Engine :=
  let e := e.makeRoom
  let r := e.newRecord o f name
  let e : Engine := { e with memory := { e.memory with records := e.memory.records ++ [r] } }
  let e : Engine := { e with seq :=
    { e.seq with queue := e.seq.queue.map (·.bind o.number r.slot), stage := e.seq.stage.map (·.bind o.number r.slot) } }
  e.editOrder o.number fun o => { o.fire name with record := some r.slot }

/-- A change of one record. -/
def Memory.edit (slot : Nat) (f : Record → Record) (m : Memory) : Memory :=
  { m with records := m.records.map fun r => if r.slot = slot then f r else r }

/-- A later fire event of a STRIKE: its name joins the fired set of its record, while that is there (R73, R109). -/
def Engine.laterFire (o : Order) (name : FireName) (e : Engine) : Engine :=
  let e := e.editOrder o.number (·.fire name)
  match o.record with
  | some slot => { e with memory := e.memory.edit slot fun r => { r with fired := r.fired ++ [name] } }
  | none => e

/-- The names of a record that are fired and not yet lifted (R74). -/
def Record.unlifted (r : Record) : List FireName := r.fired.filter fun n => n ∉ r.lifted

/-- A fire event of a LIFT: the name moves into the lifted set, and a record lifted completely is removed
(R74, R109). -/
def Engine.liftFire (o : Order) (name : FireName) (e : Engine) : Engine :=
  let e := e.editOrder o.number (·.fire name)
  match o.kind with
  | .lift (.record slot) =>
    let e : Engine := { e with memory := e.memory.edit slot fun r => { r with lifted := r.lifted ++ [name] } }
    e.removeRecords fun r => r.slot = slot && r.unlifted = []
  | _ => e

/-- What a LIFT takes up when it starts: the fires of its record still unlifted, the lift on-time, the glyph
(R54, R74). -/
def Record.copy (r : Record) : LiftCopy :=
  { fires := r.fires.filter fun f => f.name ∈ r.unlifted
    onTime := liftOnTime r.onTime
    glyph := r.glyph }

end Sys2Proof.Machine
end

