-- ==== Sys2Proof/Machine/Words.lean ====
section
/-! DEFINITION. The spelling checker and the memory port reader: words and the word table, the user list, lookups,
flash reads and the dictionary state (R129 to R150). -/

set_option Elab.async false

namespace Sys2Proof.Machine

/-! ## Folding (R130) -/

/-- The letter code of a glyph: a..z are 1..26, the apostrophe 27; none for a non-letter (R2, R130). -/
def letterCode (c : Byte) : Option Nat :=
  let n := c.toNat
  if 0x41 ≤ n ∧ n ≤ 0x5A then some (n - 0x40)
  else if 0x61 ≤ n ∧ n ≤ 0x7A then some (n - 0x60)
  else if n = 0x27 then some 27
  else none

/-- Letter codes without the apostrophes at the start and at the end (R130). -/
def trimApostrophes (l : List Nat) : List Nat :=
  ((l.dropWhile (· = 27)).reverse.dropWhile (· = 27)).reverse

/-- A cell's letter code. -/
def Cell.letter (c : Cell) : Option Nat :=
  match c.content with
  | .glyph g => letterCode g
  | _ => none

/-- A digit glyph, 30h..39h (R130). -/
def Cell.digit (c : Cell) : Bool :=
  match c.content with
  | .glyph g => 0x30 ≤ g.toNat && g.toNat ≤ 0x39
  | _ => false

/-- The end of a cell. -/
def Cell.finish (c : Cell) : Nat := c.start + c.width

/-! ## Runs (R130) -/

/-- Cells split into runs of neighbours that carry the id, each with the cell before it and the cell after it. -/
def wordRuns (id : WordId) (before : Option Cell) : List Cell → List (Option Cell × List Cell × Option Cell)
  | [] => []
  | c :: cs =>
    if c.word = some id then
      match wordRuns id (some c) cs with
      | (b, run, after) :: more =>
        if (cs.head?.bind (·.word)) = some id then (before, c :: run, after) :: more
        else (before, [c], cs.head?) :: (b, run, after) :: more
      | [] => [(before, [c], cs.head?)]
    else wordRuns id (some c) cs

/-- The run that a close takes: the first that holds a cell at or after the entry's start, or else the last. -/
def chosenRun (runs : List (Option Cell × List Cell × Option Cell)) (start : Nat) :
    Option (Option Cell × List Cell × Option Cell) :=
  match runs.find? fun r => r.2.1.any fun c => start ≤ c.start with
  | some r => some r
  | none => runs.getLast?

/-- What a close makes of a word: its letters, its overlength mark, its start, and whether it is SKIPPED (R130). -/
structure Formed where
  letters : List Nat
  overlong : Bool
  start : Nat
  skipped : Bool
deriving DecidableEq, Repr

/-- A word formed from the composition line (R130). With no run it keeps its start (log 81). -/
def formWord (line : List Cell) (w : WordEntry) : Formed :=
  match chosenRun (wordRuns w.id none line) w.start with
  | none => { letters := [], overlong := false, start := w.start, skipped := true }
  | some (before, run, after) =>
    let folded := trimApostrophes (run.filterMap (·.letter))
    let start := match run with
      | c :: _ => c.start
      | [] => w.start
    let finish := match run.getLast? with
      | some c => c.finish
      | none => w.start
    let digitBefore := match before with
      | some b => b.finish = start && b.digit
      | none => false
    let digitAfter := match after with
      | some a => a.start = finish && a.digit
      | none => false
    { letters := folded.take 24
      overlong := decide (24 < folded.length)
      start := start
      skipped := decide (folded.length < 2) || decide (24 < folded.length) || digitBefore || digitAfter }

/-! ## The memory port (R140) -/

/-- A read is asked for: it starts on an idle port, and waits otherwise (R140). -/
def Port.ask (r : FlashRead) (p : Port) : Port :=
  match p.current with
  | none => { p with current := some r, timer := some 5000 }
  | some _ => { p with waiting := p.waiting ++ [r] }

/-- The read in progress is over, and the next waiting one starts (R140). -/
def Port.next (p : Port) : Port :=
  match p.waiting with
  | r :: rs => { p with current := some r, timer := some 5000, waiting := rs }
  | [] => { p with current := none, timer := none }

/-! ## Lookups (R143, R144) -/

/-- The hash of a word (R144). -/
def wordHash (letters : List Nat) : Nat := letters.foldl (fun h c => (h * 37 + c) % 65536) 0

/-- The index read of a lookup (R144). -/
def Spelling.indexRead (s : Spelling) (letters : List Nat) : FlashRead :=
  { address := s.indexOffset + 4 * (wordHash letters % s.bucketCount), length := 4, asker := .index }

/-- The head lookup enters service when the dictionary is READY and it has no read in progress (R143). -/
def Engine.serveLookups (e : Engine) : Engine :=
  match e.spell.lookups with
  | l :: rest =>
    if e.spell.dict = .ready ∧ l.phase = .waiting then
      { e with
        spell := { e.spell with lookups := { l with phase := .index } :: rest }
        port := e.port.ask (e.spell.indexRead l.letters) }
    else e
  | [] => e

/-- A word's waiting lookup leaves the queue at a reopening (R133). -/
def withoutWaiting (id : WordId) (ls : List Lookup) : List Lookup :=
  ls.filter fun l => !(l.phase = .waiting && l.word = some id)

/-- The lookups after an entry has left the table: a waiting one is removed, one in service voided (R131, R143). -/
def withoutWord (id : WordId) (ls : List Lookup) : List Lookup :=
  (withoutWaiting id ls).map fun l => if l.word = some id then { l with word := none } else l

/-- All waiting lookups removed, and one in service voided (R142, R143, R150). -/
def voidAll (ls : List Lookup) : List Lookup :=
  (ls.filter fun l => l.phase ≠ .waiting).map fun l => { l with word := none }

/-- Every PENDING entry becomes UNCHECKED (R142, R146, R150). -/
def uncheckPending (ws : List WordEntry) : List WordEntry :=
  ws.map fun w => if w.state = .pending then { w with state := .unchecked } else w

/-! ## The word table (R129 to R135) -/

/-- The entry of an id. -/
def Spelling.entry (s : Spelling) (id : WordId) : Option WordEntry := s.words.find? fun w => w.id = id

/-- An entry leaves the table (R131). -/
def Spelling.drop (id : WordId) (s : Spelling) : Spelling :=
  { s with words := s.words.filter fun w => w.id ≠ id, lookups := withoutWord id s.lookups }

/-- An entry joins as the newest; with 32 in the ring the oldest is dropped first (R131). -/
def Spelling.join (w : WordEntry) (s : Spelling) : Spelling :=
  let s := s.drop w.id
  let s := match s.words with
    | old :: _ => if 32 ≤ s.words.length then s.drop old.id else s
    | [] => s
  { s with words := s.words ++ [w] }

/-- An entry changed in its place. -/
def Spelling.edit (id : WordId) (f : WordEntry → WordEntry) (s : Spelling) : Spelling :=
  { s with words := s.words.map fun w => if w.id = id then f w else w }

/-- A new word opens with the next id and becomes the current word (R7, R129). -/
def Engine.openWord (start : Nat) (e : Engine) : Engine :=
  let id := e.spell.lastWord + 1
  let w : WordEntry :=
    { id := id, letters := [], overlong := false, state := .opened, epoch := 0, vertical := e.comp.vTarget, start := start }
  { e with
    spell := { e.spell.join w with lastWord := id }
    comp := { e.comp with word := some id } }

/-- A word reopens: OPEN, the next epoch, the newest place, its waiting lookup gone (R133). -/
def Spelling.reopen (w : WordEntry) (s : Spelling) : Spelling :=
  { s with
    words := (s.words.filter fun v => v.id ≠ w.id) ++ [{ w with state := .opened, epoch := w.epoch + 1 }]
    lookups := withoutWaiting w.id s.lookups }

/-- A word is handed over as edited (R132). -/
def Engine.handEdited (id : WordId) (e : Engine) : Engine :=
  match e.spell.entry id with
  | some w => { e with spell := e.spell.reopen w }
  | none =>
    let start := ((e.comp.line.find? fun c => c.word = some id).map (·.start)).getD 0
    let w : WordEntry :=
      { id := id, letters := [], overlong := false, state := .opened, epoch := 0, vertical := e.comp.vTarget, start := start }
    { e with spell := e.spell.join w }

/-- A word is handed over as deleted (R132). -/
def Engine.handDeleted (id : WordId) (e : Engine) : Engine := { e with spell := e.spell.drop id }

/-- The state that a close gives, and whether a lookup is asked for (R135). -/
def judge (set : SpellSetting) (s : Spelling) (f : Formed) : WordState :=
  if set = .off then .skipped
  else if f.skipped then .skipped
  else if f.letters ∈ s.user then .clean
  else if s.dict ≠ .ready then .unchecked
  else if 4 ≤ s.lookups.length then .unchecked
  else .pending

/-- A word is handed over as closed: an OPEN one is formed and judged (R130, R132, R135). -/
def Engine.handClosed (id : WordId) (e : Engine) : Engine :=
  match e.spell.entry id with
  | none => e
  | some w =>
    if w.state ≠ .opened then e
    else
      let f := formWord e.comp.line w
      let st := judge e.set.spell e.spell f
      let spell := e.spell.edit id fun w =>
        { w with letters := f.letters, overlong := f.overlong, start := f.start, state := st }
      if st = .pending then
        let l : Lookup := { word := some id, epoch := w.epoch, letters := f.letters, phase := .waiting }
        Engine.serveLookups { e with spell := { spell with lookups := spell.lookups ++ [l] } }
      else { e with spell := spell }

/-- The current word closes and becomes none (R7). -/
def Engine.closeWord (e : Engine) : Engine :=
  match e.comp.word with
  | none => e
  | some id =>
    let e := e.handClosed id
    { e with comp := { e.comp with word := none } }

/-- Each of several words is handed over as edited. -/
def Engine.editAll (ids : List WordId) (e : Engine) : Engine := ids.foldl (fun e id => e.handEdited id) e

/-- Each of several words is handed over as closed. -/
def Engine.closeAll (ids : List WordId) (e : Engine) : Engine := ids.foldl (fun e id => e.handClosed id) e

/-- Each of several words is handed over as deleted. -/
def Engine.deleteAll (ids : List WordId) (e : Engine) : Engine := ids.foldl (fun e id => e.handDeleted id) e

/-- The distinct words of some cells, in their order. -/
def cellWords (cells : List Cell) : List WordId := (cells.filterMap (·.word)).eraseDups

/-! ## Verdicts (R144 to R146) -/

/-- Whether a list of letters sorts after another, code by code, the shorter first (R139). -/
def sortsAfter : List Nat → List Nat → Bool
  | [], _ => false
  | _ :: _, [] => true
  | a :: as, b :: bs => if a = b then sortsAfter as bs else b < a

/-- The end of a scan. -/
inductive Scan where
  | found
  | missing
  | malformed
deriving DecidableEq, Repr

/-- The scan of a bucket (R144). Each entry takes at least one byte, so the bucket's length bounds the entries. -/
def scanBucket (word : List Nat) : Nat → List Byte → Scan
  | 0, _ => .missing
  | _ + 1, [] => .missing
  | fuel + 1, n :: rest =>
    if n = 0 ∨ rest.length < n.toNat then .malformed
    else
      let letters := (rest.take n.toNat).map (·.toNat)
      if letters = word then .found
      else if sortsAfter letters word then .missing
      else scanBucket word fuel (rest.drop n.toNat)

/-- The head lookup leaves, and the next enters service (R143). -/
def Engine.lookupLeaves (e : Engine) : Engine :=
  Engine.serveLookups { e with spell := { e.spell with lookups := e.spell.lookups.drop 1 } }

/-- The PENDING entry that a lookup still holds (R145). -/
def Spelling.heldBy (s : Spelling) (l : Lookup) : Option WordEntry :=
  l.word.bind fun id => s.words.find? fun w => w.id = id && w.epoch = l.epoch && w.state = .pending

/-- A verdict (R145). -/
def Engine.verdict (l : Lookup) (found : Bool) (e : Engine) : Engine :=
  match e.spell.heldBy l with
  | none => e.lookupLeaves
  | some w =>
    if found ∨ l.letters ∈ e.spell.user then
      Engine.lookupLeaves { e with spell := e.spell.edit w.id fun w => { w with state := .clean } }
    else
      let e : Engine := { e with spell := e.spell.edit w.id fun w => { w with state := .suspect } }
      e.lookupLeaves.offer (.spellWord w.id w.vertical w.start w.letters)

/-- A lookup fails: the dictionary is FAILED, and every word that waits for it UNCHECKED (R146). -/
def Engine.lookupFails (e : Engine) : Engine :=
  Engine.offer (.spellDict .failed 0 0)
    { e with spell := { e.spell with dict := .failed, lookups := [], words := uncheckPending e.spell.words } }

/-! ## The header (R139, R141) -/

/-- The fields of a valid header. -/
structure Header where
  tables : Nat
  buckets : Nat
  words : Nat
  index : Nat
  tableOffset : Nat
deriving DecidableEq, Repr

/-- A header's fields, when it is valid (R139). A table count above 4 is taken as 4 (log 45). -/
def headerOf (bytes : List Byte) : Option Header :=
  match bytes with
  | [s0, s1, v, t, b1, b0, w2, w1, w0, i2, i1, i0, o2, o1, o0] =>
    let buckets := fromTwo b1 b0
    if s0 = 0x4A ∧ s1 = 0x57 ∧ v = 0x01 ∧ buckets ∈ [256, 512, 1024, 2048, 4096, 8192] then
      some { tables := min 4 t.toNat, buckets := buckets, words := fromThree w2 w1 w0, index := fromThree i2 i1 i0,
             tableOffset := fromThree o2 o1 o0 }
    else none
  | _ => none

/-- The dictionary state that a header read gives, with what lookups keep of it (R141). -/
def Spelling.takeHeader (h : Option Header) (s : Spelling) : Spelling :=
  match h with
  | some h => { s with dict := .ready, bucketCount := h.buckets, wordCount := h.words, indexOffset := h.index }
  | none => { s with dict := .absent }

/-- The SPELL(DICT) notice of the state as it stands (R141). -/
def Spelling.dictNotice (s : Spelling) : Notice :=
  if s.dict = .ready then .spellDict .ready s.wordCount s.bucketCount else .spellDict s.dict 0 0

/-- The header read at address 0 (R139). -/
def headerRead (asker : Requester) : FlashRead := { address := 0, length := 15, asker := asker }

/-! ## The soft reset's part (R26, R150) -/

/-- The checker after the words of the open line have left: PENDING and OPEN entries are UNCHECKED, and the lookups
dropped (R150). -/
def Spelling.softReset (s : Spelling) : Spelling :=
  { s with
    words := s.words.map fun w =>
      if w.state = .pending ∨ w.state = .opened then { w with state := .unchecked } else w
    lookups := voidAll s.lookups }

end Sys2Proof.Machine
end

