-- ==== Sys2Proof/Machine/Line.lean ====
section
/-! DEFINITION. The composition line: placing and removing cells, the cursor cell index with the display's lead rule,
the rebuild, the relocate point and the bell (R5, R7, R8, R15, R16, R152). -/

set_option Elab.async false

namespace Sys2Proof.Machine

/-- The slot that composition looks up in. -/
def Engine.slot (e : Engine) : Option WheelSlot := readySlot e.slots e.comp.wheel

/-- An UNRELEASED cell (R5). -/
def Cell.unreleased (c : Cell) : Bool := c.origin = .unreleased

/-- Whether a line is open (R18). -/
def Engine.lineOpen (e : Engine) : Bool := e.comp.line.any (·.unreleased)

/-- The lead rule for the start of the row 0 window (R152). -/
def leadWindow (c s : Nat) : Nat :=
  if s + 35 < c then c - 35
  else if c < s + 4 then c - 4
  else s

/-- The cursor cell index: the number of cells that start left of the cursor (R5). -/
def cellsBefore (cursor : Nat) (line : List Cell) : Nat := (line.filter fun c => decide (c.start < cursor)).length

/-- The cursor cell index is recomputed, and the lead rule runs (R7, R152). -/
def Engine.reindex (e : Engine) : Engine :=
  let c := cellsBefore e.comp.cursor e.comp.line
  { e with
    comp := { e.comp with index := c }
    display := { e.display with window := leadWindow c e.display.window } }

/-- The composition line is replaced, and everything that follows from it (R7, R152). -/
def Engine.withLine (line : List Cell) (e : Engine) : Engine :=
  Engine.reindex { e with comp := { e.comp with line := line } }

/-- Every cell leaves the composition line, and the cursor goes to the left margin: the cursor cell index is 0, and the
window starts at 0 (R13, R18, R20, R152). -/
def Engine.freshLine (e : Engine) : Engine :=
  Engine.withLine [] { e with comp := { e.comp with cursor := e.set.left } }

/-- The cursor moves. -/
def Engine.moveCursor (x : Nat) (e : Engine) : Engine :=
  Engine.reindex { e with comp := { e.comp with cursor := x } }

/-- A cell in its place by start position: it replaces one that starts there (R7). -/
def insertCell (c : Cell) : List Cell → List Cell
  | [] => [c]
  | d :: ds =>
    if c.start < d.start then c :: d :: ds
    else if c.start = d.start then c :: ds
    else d :: insertCell c ds

/-- The cell that starts at a position. -/
def cellAt (x : Nat) (line : List Cell) : Option Cell := line.find? fun c => c.start = x

/-- A new cell is placed; the word of a cell that it replaces is handed over as edited (R7). -/
def Engine.place (c : Cell) (e : Engine) : Engine :=
  let old := (cellAt c.start e.comp.line).bind (·.word)
  let e := e.withLine (insertCell c e.comp.line)
  match old with
  | some id => e.handEdited id
  | none => e

/-- The cell with the greatest start less than a position (R7, R12, R115). -/
def cellBefore (x : Nat) (line : List Cell) : Option Cell := (line.filter fun c => decide (c.start < x)).getLast?

/-- A word-forming glyph at a position finds its word: the current one, the one that ends there, or a new one (R7). -/
def Engine.findWord (x : Nat) (e : Engine) : Engine :=
  match e.comp.word with
  | some _ => e
  | none =>
    match cellBefore x e.comp.line with
    | some c =>
      match c.word with
      | some id =>
        if c.finish = x then
          let e := e.handEdited id
          { e with comp := { e.comp with word := some id } }
        else e.openWord x
      | none => e.openWord x
    | none => e.openWord x

/-! ## Rebuild (R15) -/

/-- The cell of a record (R15). -/
def Record.cell (r : Record) : Cell :=
  { start := r.horizontal, width := r.width
    content := match r.glyph with
      | some g => .glyph g
      | none => .underlinedSpace
    bold := decide (.shadow ∈ r.fired)
    underline := decide (.under1 ∈ r.fired) || decide (.under2 ∈ r.fired)
    word := r.word, origin := .onPaper (some r.slot) }

/-- The cell of a STRIKE (R15). -/
def Order.cell (o : Order) : Option Cell :=
  match o.kind with
  | .strike f => some
    { start := o.horizontal, width := f.width
      content := match f.glyph with
        | some g => .glyph g
        | none => .underlinedSpace
      bold := f.bold, underline := f.underline, word := f.word, origin := .queued o.number }
  | _ => none

/-- The candidates at a vertical target, the newer later (R15). -/
def Engine.candidates (v : VPos) (e : Engine) : List Cell :=
  ((e.memory.records.filter fun r => r.vertical = v).map (·.cell)) ++
  ((e.seq.queue ++ e.seq.stage).filter fun o => o.vertical = v).filterMap (·.cell)

/-- The line that the candidates give: the newest at each start, the 200 smallest starts (R15). -/
def buildLine (cells : List Cell) : List Cell := (cells.foldl (fun line c => insertCell c line) []).take 200

/-- The rebuild (R15). -/
def Engine.rebuild (e : Engine) : Engine :=
  Engine.withLine (buildLine (e.candidates e.comp.vTarget)) { e with comp := { e.comp with word := none } }

/-! ## Relocate point and bell (R8, R16) -/

/-- Whether a vertical position is above another: smaller by 1..24 (R16). -/
def isAbove (v w : VPos) : Bool := 1 ≤ (w - v).toNat && (w - v).toNat ≤ 24

/-- The relocate point after a key whose vertical target was `before` (R16). -/
def Engine.updateRelocate (before : VPos) (e : Engine) : Engine :=
  if isAbove before e.comp.relocateV then e
  else { e with comp := { e.comp with relocateH := e.comp.cursor, relocateV := e.comp.vTarget } }

/-- The bell test (R8). -/
def Engine.bellTest (e : Engine) : Engine :=
  if !e.comp.bellRung && e.set.right - e.set.bellZone ≤ e.comp.cursor && e.comp.cursor ≤ e.set.right then
    Engine.bell .approach { e with comp := { e.comp with bellRung := true } }
  else e

/-- A KNOB event: the vertical target and the relocate point move with the paper, and the memory is emptied
(R17, R95, R112). -/
def Engine.knob (shift : VPos) (e : Engine) : Engine :=
  Engine.emptyMemory
    { e with comp := { e.comp with vTarget := e.comp.vTarget + shift, relocateV := e.comp.relocateV + shift } }

end Sys2Proof.Machine
end

