-- ==== Sys2Proof/Machine/Channels.lean ====
section
/-! DEFINITION. Commands to the motion channels: starting a move, a homing, a rotation, a feed, a lift move and a
fire; reading the carriage counter; and what R71 lets run together (chapter 5, R71, R72). -/

set_option Elab.async false

namespace Sys2Proof.Machine

/-- The executing order: the head of the queue, when it is EXECUTING (R65). -/
def Engine.executing (e : Engine) : Option Order :=
  match e.seq.queue with
  | o :: _ => if o.state = .executing then some o else none
  | [] => none

/-! ## What may run together (R71) -/

/-- No on-time pulse and no rest runs. -/
def Engine.hammerQuiet (e : Engine) : Bool := !(e.hammer.state = .on || e.hammer.state = .rest)

/-- The carriage moves or homes. -/
def Carriage.busy (c : Carriage) : Bool := c.state = .moving || c.state = .homing

/-- A carriage move or a lift move may start (R71). -/
def Engine.mayTravel (e : Engine) : Bool := e.platen.state ≠ .feeding && e.hammerQuiet

/-- A platen feed may start (R71). A feed that a fault left running ends first (R76, R170). -/
def Engine.mayFeed (e : Engine) : Bool :=
  !e.carriage.busy && e.lift.state ≠ .moving && e.hammerQuiet && e.platen.state ≠ .feeding

/-! ## The carriage (R87 to R89) -/

/-- The carriage is idle where a move to a target ends: the target is clamped into the travel (R87). -/
def Carriage.at (c : Carriage) (x : Nat) : Bool := c.state = .idle && c.position = min 1599 x

/-- A homing begins (R89): rightwards first when the home flag is active. -/
def Engine.homeCarriage (use : CarriageUse) (after : AfterHoming) (e : Engine) : Engine :=
  { e with carriage :=
      { e.carriage with
        state := .homing, rightwards := e.pins.home, start := e.carriage.position, after := after, use := use
        timer := some 6000 } }

/-- A move to a target is commanded (R87): at once when already there, through a homing when LOST. -/
def Engine.carriageTo (target : Nat) (use : CarriageUse) (e : Engine) : Engine :=
  let t := min 1599 target
  match e.carriage.state with
  | .idle =>
    if e.carriage.position = t then e
    else { e with carriage := { e.carriage with state := .moving, target := t, use := use, timer := some 6000 } }
  | .lost => e.homeCarriage use (.to t)
  | .moving => e
  | .homing => e
  | .off => e

/-- A place between two positions, both included, as far as an open value says. -/
def between (a b n : Nat) : Nat := min a b + n % (max a b - min a b + 1)

/-- The counter as an event finds it: under way it lies anywhere up to the target, since the drive's steps are no
commands (R87, R89; log 3). The right part of a homing drives at most 48 steps; its left search is not counted. -/
def Engine.readCounter (e : Engine) : Engine :=
  match e.carriage.state with
  | .moving =>
    { e with
      carriage := { e.carriage with
        position := between e.carriage.position e.carriage.target (Config.carriageDriven e.free) }
      free := e.free + 1 }
  | .homing =>
    if e.carriage.rightwards then
      { e with
        carriage := { e.carriage with
          position := between e.carriage.position (min 1599 (e.carriage.start + 48)) (Config.carriageDriven e.free) }
        free := e.free + 1 }
    else e
  | .idle => e
  | .lost => e
  | .off => e

/-- The carriage stops as LOST (R88, R89, R100). -/
def Engine.loseCarriage (e : Engine) : Engine :=
  let e := e.readCounter
  { e with carriage := { e.carriage with state := .lost, timer := none } }

/-- A carriage under way stops as R100 states: LOST. -/
def Engine.stopCarriage (e : Engine) : Engine := if e.carriage.busy then e.loseCarriage else e

/-! ## The wheel (R90, R91, R55) -/

/-- The shorter way round the 96 petals is forward; at a distance of 48 either way it is forward too (R90). -/
def shorterForward (held target : Nat) : Bool := (target + 96 - held) % 96 ≤ 48

/-- A rotation is commanded (R90). -/
def Engine.rotateTo (petal : Nat) (e : Engine) : Engine :=
  if e.wheel.state = .settled ∧ e.wheel.petal ≠ some petal then
    { e with wheel := { e.wheel with
        state := .rotating, target := petal, forward := shorterForward (e.wheel.petal.getD 0) petal
        timer := some 40000 } }
  else e

/-- A homing of the wheel is asked for (R91, R93): with the cover closed it begins its search, forward, and waits for the
cover otherwise, the channel being OFF (R104; log 87). -/
def Engine.homeWheel (use : HomingUse) (required : Option Nat) (e : Engine) : Engine :=
  let w : Wheel :=
    { e.wheel with
      timer := none, homingSpan := true, wakeSpan := decide (use = .wake), starter := e.executing.map (·.number) }
  if e.levels.closed then
    { e with wheel := { w with state := .homing, forward := true, homing := some ⟨use, required, .search⟩ } }
  else { e with wheel := { w with state := .off, homing := some ⟨use, required, .waiting⟩ } }

/-- A homing that runs, and does not wait (R93, R180). -/
def Wheel.homingRuns (w : Wheel) : Bool :=
  match w.homing with
  | some h => h.phase ≠ .waiting
  | none => false

/-! ## The platen (R94) -/

/-- A feed is commanded, forward or in reverse; a feed of 0 ends at once (R94). -/
def Engine.feed (steps : Int) (e : Engine) : Engine :=
  if steps = 0 then e
  else { e with platen :=
    { e.platen with state := .feeding, remaining := steps.natAbs, forward := 0 < steps, timer := some 20000 } }

/-- A feed stops where its edges took it (R94, R100). -/
def Platen.halt (p : Platen) : Platen :=
  if p.state = .feeding then { p with state := .idle, remaining := 0, timer := none } else p

/-! ## The lift (R96) -/

/-- The lift is held at a position. -/
def Lift.at (l : Lift) (p : LiftTarget) : Bool := l.state = .held p

/-- The position that the lift switches read (R96). -/
def Pins.lift (p : Pins) : Option LiftTarget := readSwitches p.lsw1Closed p.lsw0Closed

/-- A lift move is commanded (R96): at once when there already, by way of VIEW when UNKNOWN. A move to VIEW from
UNKNOWN has the one leg only, and a leg to VIEW ends at once when the switches read VIEW already. -/
def Engine.liftTo (target : LiftTarget) (use : LiftUse) (e : Engine) : Engine :=
  let l : Lift := { e.lift with state := .moving, target := target, viaView := false, use := use, timer := some 30000 }
  match e.lift.state with
  | .held p => if p = target then e else { e with lift := l }
  | .unknown =>
    if e.pins.lift = some .view then
      if target = .view then { e with lift := { l with state := .held .view, timer := none } } else { e with lift := l }
    else { e with lift := { l with viaView := decide (target ≠ .view) } }
  | .moving => e

/-- A lift move is commanded as soon as it may start (R71). -/
def Engine.tryLift (target : LiftTarget) (use : LiftUse) (e : Engine) : Engine :=
  if e.mayTravel then e.liftTo target use else e

/-- A lift under way stops as R100 states: UNKNOWN. -/
def Engine.stopLift (e : Engine) : Engine :=
  if e.lift.state = .moving then { e with lift := { e.lift with state := .unknown, viaView := false, timer := none } } else e

/-! ## The hammer (R97) -/

/-- The driver as the hammer-home input finds it (R97). -/
def restedHammer (home : Bool) : HammerState := if home then .ready else .stuck

/-- A fire is commanded of a READY driver: the pulse starts, and the hammer leaves its home (R97). -/
def Engine.pulse (onTime : Nat) (e : Engine) : Engine :=
  { e with
    hammer := { state := .on, pulse := some onTime, waitTimer := none }
    pins := { e.pins with hammerHome := false } }

end Sys2Proof.Machine
end

