-- ==== Sys2Proof/Machine/Faults.lean ====
section
/-! DEFINITION. The fault record: writing a slot, the FAULT notice, and what a fault does to the sequencer, the lift
and the message area (R76, R159, R164 to R168). -/

set_option Elab.async false

namespace Sys2Proof.Machine

/-- The order kind that messages name (chapter 11). -/
def OrderKind.name : OrderKind → OrderName
  | .strike _ => .strike
  | .lift _ => .lift
  | .move => .move
  | .ret _ => .ret
  | .feed _ => .feed
  | .wheelChange _ => .wheelChange
  | .paperLoad => .paperLoad
  | .paperEject => .paperEject

/-- The glyph that a fault names: the STRIKE's, or that of the LIFT's record (R164). -/
def Engine.orderGlyph (o : Order) (e : Engine) : Option Byte :=
  match o.kind with
  | .strike f => f.glyph
  | .lift ref =>
    match o.copy with
    | some c => c.glyph
    | none =>
      match ref with
      | .record slot => (e.memory.record slot).bind (·.glyph)
      | _ => none
  | _ => none

/-- The fault record holds no fault. -/
def FaultRecord.empty (f : FaultRecord) : Bool := f.x.isNone && f.p.isNone

/-- The slot's content for a fault of an order, or of no order (R164). -/
def Engine.faultOf (kind : FaultKind) (order : Option Order) (flag : Bool) (required : Option Nat) (e : Engine) :
    FaultSlot :=
  match order with
  | some o =>
    { kind := kind, order := some o.kind.name, group := o.group, target := some (o.horizontal, o.vertical)
      glyph := e.orderGlyph o, afterHammer := flag && o.afterHammer, required := required, count := 0, kinds := [] }
  | none =>
    { kind := kind, order := none, group := 0, target := none, glyph := none, afterHammer := false
      required := required, count := 0, kinds := [] }

/-- A slot after a further fault (R165). -/
def FaultSlot.further (kind : FaultKind) (s : FaultSlot) : FaultSlot :=
  { s with count := min 255 (s.count + 1), kinds := if kind ∈ s.kinds then s.kinds else s.kinds ++ [kind] }

/-- The kinds a slot holds (R165). -/
def FaultSlot.holds (kind : FaultKind) (s : FaultSlot) : Bool := s.kind = kind || kind ∈ s.kinds

/-- The FAULT notice of a kind from its slot's fields (R165). -/
def FaultSlot.notice (slot : SlotName) (kind : FaultKind) (s : FaultSlot) : Notice :=
  .fault slot kind s.order s.afterHammer s.group s.glyph s.target s.required

/-- A slot after a fault, and whether a notice is due (R165). -/
def putFault (new : FaultSlot) : Option FaultSlot → FaultSlot × Bool
  | none => (new, true)
  | some s => (s.further new.kind, !s.holds new.kind)

/-- The kind that the message area names: the first of the X slot, or else of the P slot (R159). -/
def FaultRecord.shown (f : FaultRecord) : Option FaultKind :=
  match f.x with
  | some s => some s.kind
  | none => f.p.map (·.kind)

/-- The fault text in the message area, with the hold timer stopped (R159). -/
def Display.showFault (f : FaultRecord) (d : Display) : Display :=
  match f.shown with
  | some k => { d with message := .fault k, holdTimer := none }
  | none => d

/-- The sequencer becomes FAULTED, unless it is FAULTED already or STOPPED: the view timer stops, and the lift is to
go to VIEW unless it has stalled (R76, R77, R78). -/
def Engine.becomeFaulted (kind : FaultKind) (e : Engine) : Engine :=
  let seq := e.seq
  if seq.state = .stopped then e
  else if seq.state = .faulted then
    if kind = .liftStall then { e with seq := { seq with liftToView := false } } else e
  else { e with seq := { seq with state := .faulted, viewTimer := none, liftToView := decide (kind ≠ .liftStall) } }

/-- A fault is written to a slot (R165). The mounted wheel before the first fault is kept (R55). -/
def Engine.writeFault (slot : SlotName) (new : FaultSlot) (e : Engine) : Engine :=
  let before := if e.faults.empty then e.wheel.found else e.faults.wheelBefore
  let r := match slot with
    | .x => putFault new e.faults.x
    | .p => putFault new e.faults.p
  let faults : FaultRecord := match slot with
    | .x => { e.faults with x := some r.1, wheelBefore := before }
    | .p => { e.faults with p := some r.1, wheelBefore := before }
  let e : Engine := { e with faults := faults, display := e.display.showFault faults }
  let e := e.becomeFaulted new.kind
  if r.2 then e.offer (r.1.notice slot new.kind) else e

/-- The P order: the second while the head executes, and the head otherwise (R65). -/
def Engine.pOrder (e : Engine) : Option Order :=
  match e.seq.queue with
  | o :: rest => if o.state = .executing then rest.head? else some o
  | [] => none

/-- The order that the P slot names is the one whose failure fills it (R164, R165). -/
def Engine.nameOrder (o : Order) (e : Engine) : Engine :=
  { e with faults := { e.faults with named := if e.faults.p.isNone then some o.number else e.faults.named } }

/-- The held failure of the P order goes to the P slot (R68). -/
def Engine.writeHeld (e : Engine) : Engine :=
  match e.pOrder with
  | none => e
  | some o =>
    match o.held with
    | none => e
    | some k =>
      if o.heldWritten then e
      else
        let e := e.nameOrder o
        let e := e.writeFault .p (e.faultOf k (some o) false none)
        e.editOrder o.number fun o => { o with heldWritten := true }

/-- An X fault of the executing order, with the P order's held failure behind it (R76). -/
def Engine.orderFault (kind : FaultKind) (o : Order) (required : Option Nat) (e : Engine) : Engine :=
  (e.writeFault .x (e.faultOf kind (some o) true required)).writeHeld

/-- A step of the self-test has failed (R176). -/
def SelfTest.fail (step : Nat) (t : SelfTest) : SelfTest :=
  { t with failed := if step ∈ t.failed then t.failed else t.failed ++ [step] }

/-- A change of the running test. -/
def Engine.editTest (f : SelfTest → SelfTest) (e : Engine) : Engine := { e with selfTest := e.selfTest.map f }

/-- The self-test after a failure of a channel that no step of its own commanded: it counts for the step that exercises
that channel (R102; log 75). The other kinds have no step. -/
def SelfTest.suffer (kind : FaultKind) (t : SelfTest) : SelfTest :=
  match kind with
  | .carriageStall => t.fail 2
  | .wheelStall => t.fail 3
  | .wheelHomeFail => t.fail 3
  | .wheelMismatch => t.fail 3
  | .liftStall => t.fail (if t.step < 5 then 1 else 5)
  | _ => t

/-- A fault outside an order (R102). During a self-test it is a result of the test, and no fault. -/
def Engine.looseFault (kind : FaultKind) (required : Option Nat) (e : Engine) : Engine :=
  if e.selfTest.isSome then e.editTest (·.suffer kind) else e.writeFault .x (e.faultOf kind none false required)

/-- A failure of a channel that an order or a RESUME drives: the fields of the executing order, or of the head order
during RESUME's recovery, or no order (R76, R102, R171). -/
def Engine.headFault (kind : FaultKind) (required : Option Nat) (e : Engine) : Engine :=
  match e.executing with
  | some o => e.orderFault kind o required
  | none =>
    if e.selfTest.isSome then e.looseFault kind required
    else e.writeFault .x (e.faultOf kind e.seq.queue.head? true required)

/-- A channel failure outside a recovery: of the executing order, or of none (R76, R102). DESIGN CHOICE: a motion of an order
that RESUME has made QUEUED again, and that fails before the order runs again, is no part of the recovery, and its fault
has order kind none (log 98). -/
def Engine.channelFault (kind : FaultKind) (e : Engine) : Engine :=
  match e.executing with
  | some o => e.orderFault kind o none
  | none => e.looseFault kind none

/-- The fault record is emptied, and the fault text leaves (R159, R170, R172). The lift move of a held fault that has not begun
is given up, and one of the view timer is not (log 43). -/
def Engine.clearFaults (e : Engine) : Engine :=
  { e with
    faults := {}
    seq := { e.seq with liftToView := e.seq.liftToView && e.faults.empty }
    display := match e.display.message with
      | .fault _ => { e.display with message := .nothing }
      | _ => e.display }

end Sys2Proof.Machine
end

