-- ==== Sys2Proof/Machine/Queue.lean ====
section
/-! DEFINITION. The strike queue: making orders, the group table, the prepare stage, draining the release stage, and
`Engine.settle`, which follows every event with what the sequencer, the release stage and power control do at once
(R10, R22, R64 to R69, R77 to R84, R147, R148, R166, R180). -/

set_option Elab.async false

namespace Sys2Proof.Machine

/-! ## Orders (R63, R64) -/

/-- An order with the next number. -/
def Engine.makeOrder (kind : OrderKind) (group h : Nat) (v : VPos) (e : Engine) : Order :=
  { number := e.seq.nextOrder, kind := kind, group := group, horizontal := h, vertical := v }

/-- An order joins the tail of the strike queue. -/
def Engine.append (kind : OrderKind) (group h : Nat) (v : VPos) (e : Engine) : Engine :=
  { e with seq :=
    { e.seq with queue := e.seq.queue ++ [e.makeOrder kind group h v], nextOrder := e.seq.nextOrder + 1 } }

/-- Numbered orders of one group, from kinds with their targets. -/
def numberOrders (group : Nat) (v : VPos) : Nat → List (OrderKind × Nat) → List Order
  | _, [] => []
  | n, (kind, h) :: rest => { number := n, kind := kind, group := group, horizontal := h, vertical := v } ::
      numberOrders group v (n + 1) rest

/-- Whether a MOVE coalesces into the tail (R10). -/
def Engine.coalesces (e : Engine) : Bool :=
  match e.seq.queue.getLast? with
  | some o => o.kind = .move && o.group = 0 && o.state = .queued
  | none => false

/-- A MOVE of group 0 joins the queue, or coalesces into its tail (R10). The vertical target stays the tail's. -/
def Engine.appendMove (h : Nat) (e : Engine) : Engine :=
  if e.coalesces then
    { e with seq := { e.seq with queue :=
        e.seq.queue.dropLast ++ (e.seq.queue.getLast?.toList.map fun o => { o with horizontal := h }) } }
  else e.append .move 0 h e.comp.vTarget

/-- The number of the order at the tail, which a space cell of a MOVE refers to. -/
def Engine.tailNumber (e : Engine) : Nat := (e.seq.queue.getLast?.map (·.number)).getD 0

/-- The free entries of the strike queue. -/
def Engine.room (e : Engine) : Nat := 32 - e.seq.queue.length

/-! ## Groups (R66, R83, R84) -/

/-- The next group id after one, passing over the ids that open groups hold (R66). -/
def nextGroup (held : List Nat) : Nat → Nat → Nat
  | 0, g => g % 255 + 1
  | fuel + 1, g => if g % 255 + 1 ∈ held then nextGroup held fuel (g % 255 + 1) else g % 255 + 1

/-- The id that the next group takes. -/
def Engine.groupId (e : Engine) : Nat := nextGroup (e.seq.groups.map (·.id)) 255 e.seq.lastGroup

/-- A group opens with a number of orders (R66). -/
def Engine.openGroup (kind : GroupKind) (n : Nat) (e : Engine) : Engine :=
  { e with seq :=
    { e.seq with groups := e.seq.groups ++ [{ id := e.groupId, kind := kind, remaining := n }], lastGroup := e.groupId } }

/-- A group loses an order, with what that adds to it (R83). Group 0 has no entry. -/
def Engine.loseFrom (group : Nat) (f : Group → Group) (e : Engine) : Engine :=
  { e with seq :=
    { e.seq with groups := e.seq.groups.map fun g =>
        if g.id = group then f { g with remaining := g.remaining - 1 } else g } }

/-- The outcome of a closing group (R83). -/
def Group.outcome (g : Group) : DoneOutcome :=
  if g.flushed then .flushed else if g.aborted then .aborted else if g.stale then .stale else .complete

/-- The DONE notice of a closing group (R84). -/
def Group.notice (g : Group) : Notice := .done g.id g.kind g.outcome g.notExecuted []

/-- Every group without orders closes, in the order the groups were opened (R83). -/
def Engine.closeGroups (e : Engine) : Engine :=
  let done := e.seq.groups.filter fun g => g.remaining = 0
  let e' : Engine := { e with seq := { e.seq with groups := e.seq.groups.filter fun g => g.remaining ≠ 0 } }
  e'.offerAll (done.map (·.notice))

/-! ## The prepare stage (R67 to R69, R166) -/

/-- The result of the checks on the P order. A LIFT bound to a STRIKE that has not fired is not checked, and neither is one
whose record is lost before its STRIKE has completed (R120). -/
inductive Check where
  | stale
  | notYet
  | fails (kind : FaultKind)
  | passes
deriving DecidableEq, Repr

/-- A READY slot carries the mounted wheel (R67, step 3). -/
def Engine.wheelKnown (e : Engine) : Bool := (readySlot e.slots e.wheel.mounted).isSome

/-- The petals of a STRIKE's fire list are present (R67, step 4). -/
def StrikeFields.petalsPresent (f : StrikeFields) : Bool :=
  if f.glyph.isSome then f.petal.isSome else f.underlinePetal.isSome

/-- The checks of R67, in their order, the cover first (R69; log 84). -/
def Engine.check (o : Order) (e : Engine) : Check :=
  match o.kind with
  | .wheelChange _ => .passes
  | .strike f =>
    if !e.levels.closed then .fails .coverOpen
    else if !e.wheelKnown then .fails .noWheelTable
    else if !f.petalsPresent then .fails .absentPetal
    else if !e.levels.present then .fails .paperOut
    else if e.levels.ribbonEnd then .fails .ribbonEnd
    else .passes
  | .lift (.bound _) => .notYet
  | .lift (.emptied n) => if e.seq.queue.any fun q => q.number = n then .notYet else .stale
  | .lift .gone => .stale
  | .lift (.record slot) =>
    match e.memory.record slot with
    | none => .stale
    | some r =>
      if !e.levels.closed then .fails .coverOpen
      else if !e.wheelKnown then .fails .noWheelTable
      else if e.wheel.mounted ≠ some r.wheel then .fails .liftWheel
      else if !e.levels.present then .fails .paperOut
      else if e.levels.tapeEnd then .fails .tapeEnd
      else .passes
  | .move => if e.levels.closed then .passes else .fails .coverOpen
  | .ret _ => if e.levels.closed then .passes else .fails .coverOpen
  | .feed _ => if e.levels.closed then .passes else .fails .coverOpen
  | .paperLoad => if e.levels.closed then .passes else .fails .coverOpen
  | .paperEject => if e.levels.closed then .passes else .fails .coverOpen

/-- An order with the result of its checks: PREPARED, or QUEUED with a held failure, kept when it is the same
(R68, R69, R166). -/
def Order.prepared (r : Check) (o : Order) : Order :=
  match r with
  | .passes => { o with state := .prepared, held := none, heldWritten := false }
  | .fails k => if o.held = some k then o else { o with state := .queued, held := some k, heldWritten := false }
  | .notYet => o
  | .stale => o

/-- A LIFT dropped as stale leaves the queue, and its group counts it (R68). -/
def Engine.dropStale (o : Order) (e : Engine) : Engine :=
  let e : Engine := { e with seq := { e.seq with queue := e.seq.queue.filter fun q => q.number ≠ o.number } }
  (e.loseFrom o.group fun g => { g with notExecuted := g.notExecuted + 1, stale := true }).closeGroups

/-- While FILLING, orders pass into the strike queue as there is room (R81). -/
def Engine.drain (e : Engine) : Engine :=
  if e.seq.stageState = .filling then
    let rest := e.seq.stage.drop e.room
    { e with seq := { e.seq with
        queue := e.seq.queue ++ e.seq.stage.take e.room
        stage := rest
        stageState := if rest = [] then .empty else .filling } }
  else e

/-- An order that joins the queue takes the sequencer from IDLE to RUNNING (R78). -/
def Engine.rouse (e : Engine) : Engine :=
  if e.seq.state = .idle ∧ e.seq.queue ≠ [] then { e with seq := { e.seq with state := .running } } else e

/-- The prepare stage works on an order: it takes up new ones while RUNNING, and prepares those taken again (R65, R69).
While RESUME's recovery homes the wheel it takes none up (R80, R170; log 15). -/
def Engine.prepares (o : Order) (e : Engine) : Bool :=
  (e.seq.state = .running && !e.seq.recovery.wheel) || o.state = .prepared || o.held.isSome

/-- Draining and preparing until neither changes anything: each stale drop may bring a new P order. -/
def prepareLoop : Nat → Engine → Engine
  | 0, e => e
  | fuel + 1, e =>
    let e := e.drain.rouse
    match e.pOrder with
    | none => e
    | some o =>
      if e.prepares o then
        match e.check o with
        | .stale => prepareLoop fuel (e.dropStale o)
        | r => e.editOrder o.number (·.prepared r)
      else e

/-- The P order is prepared again after a change of its inputs, ahead of a fault of the same event (R69, R76; log 16). -/
def Engine.prepare (e : Engine) : Engine := prepareLoop (e.seq.queue.length + e.seq.stage.length + 1) e

/-- A held failure is written at once while no order executes, and so is a new one of the order that the P slot names
(R68, R166). -/
def Engine.heldNow (e : Engine) : Engine :=
  if e.executing.isNone || e.faults.p.isSome then e.writeHeld else e

/-- The view timer starts at 1 s (R77). -/
def viewTime : Timer := some 1000000

/-- The last order has left the queue (R77, R78). -/
def Engine.rest (e : Engine) : Engine :=
  if e.seq.state = .running ∧ e.seq.queue = [] then
    { e with seq := { e.seq with
        state := if e.seq.pausePending then .paused else .idle, pausePending := false, viewTimer := viewTime } }
  else e

/-- The lift goes to VIEW after a fault or the view timer's expiry, once the channels allow it (R71, R76, R77). A lift under way
ends its move first, and the self-test's lift moves end first. -/
def Engine.viewLift (e : Engine) : Engine :=
  if e.seq.liftToView && e.mayTravel && e.lift.state ≠ .moving && e.selfTest.isNone then
    Engine.liftTo .view .fault { e with seq := { e.seq with liftToView := false } }
  else e

/-- The words of the line in the release stage that are PENDING or SUSPECT (R147, R148). -/
def Engine.unresolved (orders : List Order) (e : Engine) : Bool :=
  orders.any fun o =>
    match o.kind with
    | .strike f =>
      match f.word.bind e.spell.entry with
      | some w => w.state = .pending || w.state = .suspect
      | none => false
    | _ => false

/-- A HELD release stage becomes FILLING when none of its words is unresolved, and when the setting leaves HOLD
(R134, R148). -/
def Engine.gate (e : Engine) : Engine :=
  if e.seq.stageState = .held ∧ (e.set.spell ≠ .hold ∨ e.unresolved e.seq.stage = false) then
    { e with seq := { e.seq with stageState := .filling } }
  else e

/-! ## The conditions of R180 -/

/-- The conditions under which the standby timer counts (R180). On the way to DEEP_OFF they do not hold. -/
def Engine.restful (e : Engine) : Bool :=
  e.power.state = .run && e.power.wake.isNone && e.power.softReset.isNone && e.power.deepOff.isNone &&
  e.comp.keys = [] && e.seq.queue = [] && e.seq.stageState = .empty && e.seq.state = .idle && e.faults.empty &&
  e.selfTest.isNone && !e.wheel.homingRuns

/-- An entry into STANDBY or SLEEP whose lift moves is given up (R181). The standby timer, which the entry stopped, starts
afresh when the conditions of R180 hold then (log 90). -/
def Engine.giveUpEntry (e : Engine) : Engine :=
  if e.power.entering.isSome then
    { e with power := { e.power with entering := none, pendingEntry := none, conditions := false } }
  else e

/-- An entry into STANDBY or SLEEP is given up when something comes while its lift moves (R181). -/
def Engine.dropEntry (e : Engine) : Engine := if e.restful then e else e.giveUpEntry

/-- The standby timer starts afresh when its conditions come to hold, and stops when one fails (R180). -/
def Engine.standbyUpdate (e : Engine) : Engine :=
  if e.restful = e.power.conditions then e
  else if e.restful then
    { e with power := { e.power with
        conditions := true, timer := if e.set.standby = 0 then none else some (e.set.standby * 5000000) } }
  else { e with power := { e.power with conditions := false, timer := none } }

/-- What follows an event at once in the queues: the release stage, the prepare stage, held failures, the sequencer's
state, the lift to VIEW, an entry given up, and the standby timer. The mounted wheel is noted for the next
event. -/
def Engine.settle (e : Engine) : Engine :=
  let e := e.gate
  let e := e.prepare
  let e := e.heldNow.rest.viewLift.dropEntry.standbyUpdate
  { e with wheel := { e.wheel with found := e.wheel.mounted } }

end Sys2Proof.Machine
end

