-- ==== Sys2Proof/Machine/Sequencer.lean ====
section
/-! DEFINITION. The execute stage: the start of the head order, its positioning and fires, the phases of the kinds
without fires, its completion, and how it is abandoned (R59, R70 to R75, R85, R167). -/

set_option Elab.async false

namespace Sys2Proof.Machine

/-- The position at which an order leaves the printing place (R75). The print point is 0..1599, so a target past the
travel leaves it where the carriage stops (R87; log 95). -/
def Order.endPosition (o : Order) : Nat :=
  match o.kind with
  | .strike f => o.horizontal + f.width
  | .lift _ => o.horizontal
  | .move => min 1599 o.horizontal
  | .ret _ => min 1599 o.horizontal
  | .feed _ => min 1599 o.horizontal
  | .wheelChange _ => min 1599 o.horizontal
  | .paperLoad => min 1599 o.horizontal
  | .paperEject => min 1599 o.horizontal

/-- A cell of an order that completes becomes ON_PAPER (R5, R75). -/
def Cell.settled (o : Order) (c : Cell) : Cell :=
  if c.origin = .queued o.number then { c with origin := .onPaper o.record } else c

/-- Whether a completion advances the line generation (R75, R110). -/
def OrderKind.advancesLine : OrderKind → Bool
  | .ret _ => true
  | .feed n => 8 ≤ n
  | _ => false

/-- The pulses that a completion sends to the ribbon and tape drives (R75). -/
def Sequencer.advanceInk (kind : OrderKind) (s : Sequencer) : Sequencer :=
  match kind with
  | .strike f => { s with ribbonSteps := s.ribbonSteps + f.width }
  | .lift _ => { s with tapeUnits := s.tapeUnits + 1 }
  | _ => s

/-- The completion of the head order, as one event (R75, R78, R83). -/
def Engine.completeOrder (o : Order) (e : Engine) : Engine :=
  let seq : Sequencer := { e.seq with queue := e.seq.queue.drop 1, printPoint := o.endPosition }
  let seq := seq.advanceInk o.kind
  let seq : Sequencer :=
    if seq.pausePending then { seq with state := .paused, pausePending := false, viewTimer := viewTime } else seq
  let e : Engine := { e with seq := seq, comp := { e.comp with line := e.comp.line.map (·.settled o) } }
  let e := if o.kind.advancesLine then e.advanceGeneration else e
  (e.loseFrom o.group id).closeGroups

/-! ## Fires (R72 to R74) -/

/-- The fires an executing order still has to make (R72, R74, R167). -/
def Order.nextFire (o : Order) : Option Fire :=
  match o.kind with
  | .strike f => f.fires.find? fun x => x.name ∉ o.fired
  | .lift _ => o.copy.bind fun c => c.fires.find? fun x => x.name ∉ o.fired
  | _ => none

/-- The lift position an order's fires need (R72, R77). -/
def Order.liftPosition (o : Order) : LiftTarget :=
  match o.kind with
  | .lift _ => .correct
  | _ => .print

/-- The on-time of an order's fires (R53, R54). -/
def Order.onTime (o : Order) : Nat :=
  match o.kind with
  | .strike f => f.onTime
  | _ => (o.copy.map (·.onTime)).getD 0

/-- The conditions under which the hammer fires (R72). -/
def Engine.inPlace (f : Fire) (p : LiftTarget) (e : Engine) : Bool :=
  e.carriage.at f.position && e.wheel.state = .settled && e.wheel.petal = f.petal && e.lift.at p &&
  e.platen.state ≠ .feeding && e.levels.closed && e.faults.empty

/-- The fire event of an order (R73, R74). -/
def Engine.fireEvent (o : Order) (f : Fire) (e : Engine) : Engine :=
  match o.kind with
  | .strike fields => if o.fired = [] then e.firstFire o fields f.name else e.laterFire o f.name
  | .lift _ => e.liftFire o f.name
  | _ => e

/-- The hammer is commanded: a READY driver fires, a STUCK one waits 3000 µs for hammer-home (R97). -/
def Engine.command (o : Order) (f : Fire) (e : Engine) : Engine :=
  match e.hammer.state with
  | .ready => (e.pulse o.onTime).fireEvent o f
  | .stuck =>
    if e.hammer.waitTimer.isSome then e else { e with hammer := { e.hammer with waitTimer := some 3000 } }
  | .on => e
  | .rest => e
  | .off => e

/-- Positioning for a fire, as far as R71 allows it now (R72). An UNKNOWN wheel with a mounted id is homed first (R172). -/
def Engine.position (f : Fire) (p : LiftTarget) (e : Engine) : Engine :=
  if !e.hammerQuiet then e
  else if e.wheel.state = .unknown then
    match e.wheel.mounted with
    | some id => e.homeWheel .order (some id)
    | none => e
  else
    let e := match f.petal with
      | some n => e.rotateTo n
      | none => e
    if e.mayTravel then
      let e := if e.carriage.at f.position then e else e.carriageTo f.position .order
      e.liftTo p .order
    else e

/-- The next step of an order with fires (R72, R74, R75). -/
def Engine.advanceFires (o : Order) (e : Engine) : Engine :=
  match o.nextFire with
  | none => if e.hammer.state = .ready then e.completeOrder o else e
  | some f => if e.inPlace f o.liftPosition then e.command o f else e.position f o.liftPosition

/-! ## The kinds without fires (R59, R71) -/

/-- A phase of the executing order begins. -/
def Engine.setPhase (o : Order) (p : Phase) (e : Engine) : Engine := e.editOrder o.number fun o => { o with phase := p }

/-- The order's platen feed begins; a feed of 0 ends at once (R71). -/
def Engine.startFeed (o : Order) (steps : Int) (e : Engine) : Engine :=
  if steps = 0 then e.completeOrder o else (e.setPhase o .feeding).feed steps

/-- The carriage stands at the order's target with the lift at VIEW. -/
def Engine.parked (o : Order) (e : Engine) : Bool := e.carriage.at o.horizontal && e.lift.at .view

/-- The carriage and lift moves that PAPER orders and PARK begin with (R59, R71). -/
def Engine.toView (o : Order) (e : Engine) : Engine :=
  if !e.parked o && e.mayTravel then (e.carriageTo o.horizontal .order).liftTo .view .order else e

/-- The end of a PAPER_LOAD's feed sets the vertical position to 0 (R71). -/
def Engine.paperDone (o : Order) (e : Engine) : Engine :=
  let e : Engine := if o.kind = .paperLoad then { e with platen := { e.platen with position := 0 } } else e
  e.completeOrder o

/-- The feed of a PAPER order, which empties the correction memory when it begins (R71, R101). -/
def Engine.advancePaper (o : Order) (steps : Int) (e : Engine) : Engine :=
  if o.phase = .feeding then (if e.platen.state = .idle then e.paperDone o else e)
  else
    let e := e.toView o
    if e.parked o && e.mayFeed then e.emptyMemory.startFeed o steps else e

/-- The required id of a WHEEL_CHANGE (R55). -/
def requiredOf (expected : Nat) : Option Nat := if expected = 0 then none else some expected

/-- The phases of a WHEEL_CHANGE up to AWAIT_CLOSE (R59). Its other phases begin with the cover's events. -/
def Engine.advanceChange (o : Order) (e : Engine) : Engine :=
  match o.phase with
  | .start =>
    let e := e.toView o
    if e.parked o then e.setPhase o (if e.levels.closed then .awaitOpen else .awaitClose) else e
  | .feeding => e
  | .awaitOpen => e
  | .awaitClose => e
  | .home => e

/-- A MOVE, or the carriage part of a RETURN. -/
def Engine.travel (o : Order) (e : Engine) : Engine :=
  if e.mayTravel then e.carriageTo o.horizontal .order else e

/-- The next step of the executing order (R70 to R75). It starts nothing while the fault record holds a fault (R76). -/
def Engine.advanceOrder (e : Engine) : Engine :=
  match e.executing with
  | none => e
  | some o =>
    if !e.faults.empty then e
    else
      match o.kind with
      | .strike _ => e.advanceFires o
      | .lift _ => e.advanceFires o
      | .move => if e.carriage.at o.horizontal then e.completeOrder o else e.travel o
      | .ret n =>
        if o.phase = .feeding then (if e.platen.state = .idle then e.completeOrder o else e)
        else if e.carriage.at o.horizontal then (if e.mayFeed then e.startFeed o n else e)
        else e.travel o
      | .feed n =>
        if o.phase = .feeding then (if e.platen.state = .idle then e.completeOrder o else e)
        else if e.mayFeed then e.startFeed o n
        else e
      | .wheelChange _ => e.advanceChange o
      | .paperLoad => e.advancePaper o 72
      | .paperEject => e.advancePaper o 528

/-! ## The start (R70) -/

/-- No part of RESUME's recovery still runs (R170). -/
def Recovery.over (r : Recovery) : Bool := !r.carriage && !r.wheel && !r.lift

/-- The conditions under which the head order starts (R70). -/
def Engine.mayStart (e : Engine) : Bool :=
  e.power.state = .run && e.power.wake.isNone && e.faults.empty && e.seq.state = .running && !e.seq.pausePending &&
  e.selfTest.isNone && e.seq.recovery.over

/-- What a LIFT takes up at its start (R74). -/
def Engine.takeCopy (o : Order) (e : Engine) : Option LiftCopy :=
  match o.kind with
  | .lift (.record slot) => (e.memory.record slot).map (·.copy)
  | _ => none

/-- The PREPARED head order becomes EXECUTING (R70). -/
def Engine.startHead (e : Engine) : Engine :=
  match e.seq.queue with
  | [] => e
  | o :: rest =>
    if o.state = .prepared ∧ e.mayStart then
      let o' : Order := { o with state := .executing, phase := .start, copy := e.takeCopy o }
      Engine.advanceOrder { e with seq := { e.seq with queue := o' :: rest, viewTimer := none } }
    else e

/-! ## Abandoning (R85, R100, R172) -/

/-- The carriage motion of an order stops: idle at its counter, or LOST in a homing (R85, R172). -/
def Engine.stopOrderCarriage (e : Engine) : Engine :=
  if e.carriage.use ≠ .order then e
  else if e.carriage.state = .moving then
    let e := e.readCounter
    { e with carriage := { e.carriage with state := .idle, timer := none } }
  else if e.carriage.state = .homing then e.loseCarriage
  else e

/-- The wheel motion of an order: a rotation, or a homing of the order's own. -/
def Wheel.ordered (w : Wheel) : Bool :=
  (match w.homing with
    | some h => h.use = .order || h.use = .change
    | none => w.state = .rotating) &&
  (w.state = .rotating || w.state = .homing)

/-- The wheel motion of an order stops: UNKNOWN (R85, R172). DESIGN CHOICE: a homing abandoned with its order has no outcome, so
it sends no WHEEL notice and keeps the mounted wheel (R56, R60, R91, R172; log 99). -/
def Engine.stopOrderWheel (e : Engine) : Engine :=
  if e.wheel.ordered then
    { e with wheel := { e.wheel with state := .unknown, petal := none, timer := none, homing := none } }
  else e

/-- The lift move of an order stops: the lift is as its switches read (R85, R172). -/
def Engine.stopOrderLift (e : Engine) : Engine :=
  if e.lift.state = .moving ∧ e.lift.use = .order then
    { e with lift := { e.lift with state := heldLift e.pins.lift, viaView := false, timer := none } }
  else e

/-- A fire that waits for hammer-home is given up with its order (R97; log 78). -/
def Engine.stopWait (e : Engine) : Engine := { e with hammer := { e.hammer with waitTimer := none } }

/-- The motions of the executing order stop where they are, and its waiting fire is given up (R85). -/
def Engine.stopOrder (e : Engine) : Engine :=
  let e := e.stopOrderCarriage.stopOrderWheel.stopWait
  Engine.stopOrderLift { e with platen := e.platen.halt }

end Sys2Proof.Machine
end

