-- ==== Sys2Proof/Machine/Power.lean ====
section
/-! DEFINITION. Power control and what spans the channels: the self-test, entry into STANDBY and SLEEP, the wake, the
start-up sequence, the soft reset's re-homing, DEEP_OFF, the ends of homings and moves, and `Engine.proceed`, which
takes the next step of whatever waits for a channel (R55, R56, R61, R93, R102, R105, R170, R171, R176, R179 to R186). -/

set_option Elab.async false

namespace Sys2Proof.Machine

/-! ## The display's lighting (R154, R162) -/

/-- The display is lit: the blink phase is ON and its timer starts (R154). -/
def Display.light (d : Display) : Display :=
  if d.lit then d else { d with lit := true, phaseOn := true, blinkTimer := some 500000 }

/-- The display goes dark at SLEEP (R160, R162). -/
def Display.darken (d : Display) : Display :=
  { d with
    lit := false, blinkTimer := none, message := .nothing, holdTimer := none, override := none, overrideTimer := none }

/-! ## Channels off and on (R95, R103, R184) -/

/-- The channels are switched OFF, each keeping what it knew, and what RESUME's recovery still does is over (R103). -/
def Engine.channelsOff (e : Engine) : Engine :=
  { e with
    seq := { e.seq with recovery := {} }
    carriage := { e.carriage with state := .off, timer := none }
    wheel := { e.wheel with state := .off, timer := none, homing := none, homingSpan := false, wakeSpan := false }
    platen := { e.platen with state := .off, knobCount := 0, knobSeen := false }
    hammer := { state := .off } }

/-- The signed amount of a knob count of edges, in platen steps (R95). -/
def knobShift (count : BitVec 14) : VPos := (count.signExtend 16) * 4

/-- The channels are energised: the hammer and the lift are read, and the knob count is applied (R95, R97, R184). -/
def Engine.energise (e : Engine) : Engine :=
  let shift := knobShift e.platen.knobCount
  let seen := e.platen.knobSeen
  let e : Engine :=
    { e with
      hammer := { state := restedHammer e.pins.hammerHome }
      lift := { e.lift with state := heldLift e.pins.lift, viaView := false, timer := none }
      platen := { e.platen with
        state := .idle, knobCount := 0, knobSeen := false
        position := if seen then e.platen.position + shift else e.platen.position } }
  if seen then e.knob shift else e

/-! ## Entry into STANDBY and SLEEP (R181) -/

/-- The power state of an entry. -/
def Rest.state : Rest → PowerState
  | .standby => .standby
  | .sleep => .sleep

/-- The part enters STANDBY or SLEEP, the lift being at VIEW; the carriage counter is kept as it stands (R103, R181;
log 3). -/
def Engine.enterRest (r : Rest) (e : Engine) : Engine :=
  let e := e.readCounter.channelsOff
  let e : Engine := { e with power := { e.power with state := r.state, entering := none, pendingEntry := none } }
  let e := e.offer (.power r.state)
  match r with
  | .standby => e
  | .sleep => { e with display := e.display.darken }

/-- The next step of an entry: the lift goes to VIEW, and at VIEW the part enters (R181). DESIGN CHOICE: it enters with a pulse or
a rest still running too, which ends with the driver OFF (R97, R103; log 105). -/
def Engine.advanceEntry (e : Engine) : Engine :=
  match e.power.entering with
  | none => e
  | some r =>
    let e := e.tryLift .view .entry
    if e.lift.at .view then e.enterRest r else e

/-- An entry from RUN begins: the standby timer and the view timer stop, and the lift goes to VIEW, which a move of the view
timer that still waits is part of (R181; log 43). -/
def Engine.beginEntry (r : Rest) (e : Engine) : Engine :=
  Engine.advanceEntry
    { e with
      power := { e.power with entering := some r, timer := none }
      seq := { e.seq with viewTimer := none, liftToView := false } }

/-! ## Wake (R184) -/

/-- A part that needs the cover closed begins, or waits for it. -/
def coverPart (closed : Bool) : Part := if closed then .running else .waiting

/-- A wake starts, unless one is in progress (R183, R184). -/
def Engine.startWake (e : Engine) : Engine :=
  if e.power.wake.isSome then e
  else
    let w : Wake :=
      { carriage := .running, wheel := coverPart e.levels.closed, position := e.carriage.position, faults := [] }
    let e : Engine :=
      { e with
        power := { e.power with wake := some w, pendingEntry := none }
        display := e.display.light }
    let e := e.energise
    (e.homeCarriage .wake (.to w.position)).homeWheel .wake e.wheel.mounted

/-- In STANDBY or SLEEP a request of R183 starts a wake, unless a soft reset's re-homing runs. -/
def Engine.wakeIfResting (e : Engine) : Engine :=
  if (e.power.state = .standby ∨ e.power.state = .sleep) ∧ e.power.softReset.isNone then e.startWake else e

/-- A wake whose two parts have ended ends, and writes its faults (R184). -/
def Engine.endWake (e : Engine) : Engine :=
  match e.power.wake with
  | none => e
  | some w =>
    if w.carriage = .done ∧ w.wheel = .done then
      let e : Engine := { e with power := { e.power with state := .run, wake := none } }
      let e := e.offer (.power .run)
      w.faults.foldl (fun e f => e.looseFault f.1 f.2) e
    else e

/-- A change of the wake in progress. -/
def Engine.editWake (f : Wake → Wake) (e : Engine) : Engine :=
  { e with power := { e.power with wake := e.power.wake.map f } }

/-! ## Soft reset (R186) -/

/-- The sequencer leaves STOPPED (R78): FAULTED with a fault held, IDLE, or RUNNING with orders. -/
def Engine.leaveStopped (e : Engine) : Engine :=
  let st := if !e.faults.empty then SeqState.faulted else if e.seq.queue = [] then .idle else .running
  let stalled := match e.faults.x with
    | some x => x.holds .liftStall
    | none => false
  { e with seq := { e.seq with state := st, liftToView := st = .faulted && !stalled } }

/-- A soft reset whose two homings have ended ends (R186, step 5). -/
def Engine.endSoftReset (e : Engine) : Engine :=
  match e.power.softReset with
  | none => e
  | some r =>
    if r.carriage = .done ∧ r.wheel = .done then
      let resting := e.power.state ≠ .run
      let e : Engine := { e with power := { e.power with state := .run, softReset := none } }
      let e := if resting then e.offer (.power .run) else e
      e.leaveStopped
    else e

/-- A change of the re-homing in progress. -/
def Engine.editRehoming (f : Rehoming → Rehoming) (e : Engine) : Engine :=
  { e with power := { e.power with softReset := e.power.softReset.map f } }

/-! ## Start-up (R185) -/

/-- Step 7: RUN (R185). -/
def Engine.endStartUp (e : Engine) : Engine :=
  let e : Engine := { e with power := { e.power with state := .run, startUp := none } }
  (e.offer (.power .run)).leaveStopped

/-- Step 6: the lift goes to VIEW (R185). -/
def Engine.advanceStartLift (e : Engine) : Engine :=
  if e.power.startUp = some .lift then
    let e := e.tryLift .view .startUp
    if e.lift.at .view then e.endStartUp else e
  else e

/-- Steps 5 and 6: the vertical position is 0, and composition with it (R185; log 40). -/
def Engine.startLift (e : Engine) : Engine :=
  Engine.advanceStartLift
    { e with
      platen := { e.platen with position := 0 }
      comp := { e.comp with vTarget := 0, relocateV := 0 }
      power := { e.power with startUp := some .lift } }

/-- Step 4: the wheel homes (R185). -/
def Engine.startWheel (e : Engine) : Engine :=
  Engine.homeWheel .startUp none { e with power := { e.power with startUp := some .wheel } }

/-- Step 3: the carriage homes (R185). -/
def Engine.startCarriage (e : Engine) : Engine :=
  Engine.homeCarriage .startUp .leftMargin { e with power := { e.power with startUp := some .carriage } }

/-- The read of wheel table k, whose slot becomes LOADING (R48). -/
def Engine.readTable (k : Nat) (e : Engine) : Engine :=
  { e with
    slots := e.slots.set k { state := .loading 0 }
    port := e.port.ask { address := e.spell.tableOffset + 292 * k, length := 292, asker := .table k } }

/-- Step 2: the wheel tables are read (R48, R185). -/
def Engine.nextTable (k : Nat) (e : Engine) : Engine :=
  if k < e.spell.tableCount then e.readTable k else e.startCarriage

/-- The start-up header read has ended, or timed out (R141, R162, R185). -/
def Engine.headerTaken (h : Option Header) (dict : Spelling → Spelling) (e : Engine) : Engine :=
  let spell := dict e.spell
  let spell : Spelling := match h with
    | some h => { spell with tableCount := h.tables, tableOffset := h.tableOffset }
    | none => { spell with tableCount := 0, tableOffset := 0 }
  let e : Engine := { e with spell := spell }
  let e := e.offer spell.dictNotice
  let e : Engine := { e with display := e.display.light, power := { e.power with startUp := some .tables } }
  e.nextTable 0

/-- A start of everything from hard reset values, with the first step of start-up begun (R99, R185): the header read
starts, and with it the port reads the flash device's size code (R195). The link keeps what it is given, the pins belong to
the outside, and the count of open values runs on. -/
def Engine.startUp (link : Link) (pins : Pins) (free : Nat) : Engine :=
  let e : Engine := { Engine.cold pins with link := link, free := free }
  let e := e.offer (.sensor none e.levels)
  { e with port := { e.port.ask (headerRead .startHeader) with flashSize := e.pins.flashSize } }

/-! ## DEEP_OFF (R182) -/

/-- The link as a deep-off finds it: the receiver, the replies and the frame on the line are kept, the notices lost
(R188, R189, R191). -/
def Link.throughOff (l : Link) : Link := { l with notices := [] }

/-- The deep-off wake (R182). -/
def Engine.deepOffWake (e : Engine) : Engine := Engine.startUp e.link.throughOff e.pins e.free

/-- The power state becomes DEEP_OFF: every channel is OFF, and every state that a hard reset sets is lost. A WAKE that came
meanwhile wakes the part again (R97, R103, R182). -/
def Engine.enterDeepOff (e : Engine) : Engine :=
  let e' : Engine :=
    { Engine.cold e.pins with
      carriage := { state := .off }, wheel := { state := .off }, platen := { state := .off }
      lift := { state := .unknown }, hammer := { state := .off }
      link := e.link.throughOff, free := e.free
      power := { state := .deepOff, startUp := none } }
  if e.power.wakeAfterOff then e'.deepOffWake else e'

/-- The next step on the way to DEEP_OFF from RUN: the lift goes to VIEW (R182). DESIGN CHOICE: at VIEW the part goes off with a
pulse or a rest still running too (R97; log 105). -/
def Engine.advanceDeepOff (e : Engine) : Engine :=
  if e.power.deepOff = some .lifting then
    let e := e.tryLift .view .deepOff
    if e.lift.at .view then e.enterDeepOff else e
  else e

/-- The OK reply of DEEP_OFF has been sent in full (R182). -/
def Engine.replyGone (e : Engine) : Engine :=
  if e.power.deepOff = some .replying then
    if e.power.state = .run then Engine.advanceDeepOff { e with power := { e.power with deepOff := some .lifting } }
    else e.enterDeepOff
  else e

/-! ## Self-test (R176, R177) -/

/-- The code of a step of the test (R176). -/
def stepCode : Nat → Nat
  | 1 => 6
  | 2 => 2
  | 3 => 3
  | 4 => 4
  | 5 => 6
  | _ => 5

/-- The codes of the failed steps, in step order, each once (R176). -/
def SelfTest.codes (t : SelfTest) : List Nat := (([1, 2, 3, 4, 5, 6].filter fun n => n ∈ t.failed).map stepCode).eraseDups

/-- The DONE notice of a self-test lists the codes of the failed steps, or 01 (R176). -/
def SelfTest.notice (t : SelfTest) (o : DoneOutcome) : Notice :=
  .done t.group .selfTest o 0 (if t.codes = [] then [1] else t.codes)

/-- The next step of the test. -/
def SelfTest.next (t : SelfTest) : SelfTest := { t with step := t.step + 1, sub := 0 }

/-- The test ends (R176). -/
def Engine.endTest (t : SelfTest) (e : Engine) : Engine :=
  Engine.offer (t.notice .complete) { e with selfTest := none }

/-- A homing of the self-test that fails leaves the wheel UNKNOWN with the mounted wheel none, and is reported by its
WHEEL notice (R56). DESIGN CHOICE: a wait after a failed recovery homing that stands at the test outlives it, so that the
recovery homing of R56 begins at the next cover-closed event (R61; log 104). -/
def Engine.testWheelFailed (outcome : HomingOutcome) (code required : Option Nat) (e : Engine) : Engine :=
  let e : Engine :=
    { e with wheel := { e.wheel with
        state := if e.levels.closed then .unknown else .off, petal := none, mounted := none
        homing := none, timer := none, lostByTest := true } }
  (e.offer (.wheel .selfTest outcome code required)).editTest fun t => (t.fail 3).next

/-- A lift leg of the self-test: `k` says what follows at the target (R176). -/
def Engine.testLift (target : LiftTarget) (k : SelfTest → SelfTest) (e : Engine) : Engine :=
  let e := e.tryLift target .selfTest
  if e.lift.at target then e.editTest k else e

/-- The carriage position that step 2 returns to (R176). -/
def Engine.testReturn (t : SelfTest) (e : Engine) : Nat := t.position.getD e.set.left

/-- One step of the self-test, when the channel it needs is free for it (R176). The wheel homes with the wheel id from
before the test (R55). The coil check is made wherever the lift stands, since the step follows a failed step 1 too (R98;
log 76). -/
def Engine.testStep (t : SelfTest) (e : Engine) : Engine :=
  match t.step, t.sub with
  | 1, _ => e.testLift .view (·.next)
  | 2, 0 =>
    if !e.carriage.busy && e.mayTravel then
      (e.homeCarriage .selfTest (.to 1599)).editTest fun t => { t with sub := 1 }
    else e
  | 2, 1 =>
    if e.carriage.state = .idle then (e.carriageTo (e.testReturn t) .selfTest).editTest fun t => { t with sub := 2 }
    else e
  | 2, _ =>
    if e.carriage.state = .idle then
      Engine.editTest (·.next) { e with seq := { e.seq with printPoint := e.carriage.position } }
    else e
  | 3, 0 =>
    if !e.levels.closed then e.testWheelFailed .failed none t.wheel
    else if e.wheel.homing.isSome || e.wheel.state = .rotating then e
    else (e.homeWheel .selfTest t.wheel).editTest fun t => { t with sub := 1 }
  | 3, _ => e
  | 4, _ =>
    let good := e.hammer.state = .ready && Config.coilSense e.free
    Engine.editTest (fun t => (if good then t else t.fail 4).next) { e with free := e.free + 1 }
  | 5, 0 => e.testLift .print fun t => { t with sub := 1 }
  | 5, 1 => e.testLift .correct fun t => { t with sub := 2 }
  | 5, _ => e.testLift .view (·.next)
  | 6, 0 =>
    Engine.editTest (fun t => { t with sub := 1 }) { e with port := e.port.ask (headerRead .testHeader) }
  | 6, _ => e
  | _, _ => e.endTest t

/-- The self-test goes on as far as it can at once: a step that changes it is followed by the next. -/
def advanceTest : Nat → Engine → Engine
  | 0, e => e
  | fuel + 1, e =>
    match e.selfTest with
    | none => e
    | some t =>
      let e' := e.testStep t
      if e'.selfTest = some t then e' else advanceTest fuel e'

/-! ## The next step of whatever waits for a channel -/

/-- A carriage homing of RESUME's recovery is not to be made any more: it has ended, or the self-test's own homing found
the place (R170, R176). -/
def Engine.carriageRecovered (e : Engine) : Engine :=
  { e with seq := { e.seq with recovery := { e.seq.recovery with carriage := false } } }

/-- The lift move of RESUME's recovery has ended (R170). -/
def Engine.liftRecovered (e : Engine) : Engine :=
  { e with seq := { e.seq with recovery := { e.seq.recovery with lift := false } } }

/-- The wheel homing of a RESUME that waited for the hammer begins once R71 allows it (R71, R170; log 96). -/
def Engine.advanceResumeWheel (e : Engine) : Engine :=
  match e.wheel.homing with
  | some h =>
    if h.use = .resume ∧ h.phase = .waiting ∧
        (e.seq.recovery.wheel && e.levels.closed && e.hammerQuiet) = true then e.homeWheel .resume h.required
    else e
  | none => e

/-- RESUME's recovery: the homings begin when R71 allows them, and the lift part is over when the lift is at VIEW
(R170). -/
def Engine.advanceRecovery (e : Engine) : Engine :=
  let e := e.advanceResumeWheel
  let e : Engine :=
    if e.seq.recovery.carriage && e.carriage.state = .lost && e.mayTravel then e.homeCarriage .resume .stay else e
  if e.seq.recovery.lift then
    let e := e.tryLift .view .resume
    if e.lift.at .view then e.liftRecovered else e
  else e

/-- The homings of a soft reset begin once R71 allows them: a pulse already begun ends first (R105, R186). -/
def Engine.advanceRehoming (e : Engine) : Engine :=
  match e.power.softReset with
  | none => e
  | some r =>
    let e : Engine :=
      if r.carriage = .running ∧ e.carriage.state = .lost ∧ e.mayTravel = true then e.homeCarriage .softReset .leftMargin
      else e
    if r.wheel ≠ .done ∧ e.wheel.homing = none ∧ e.hammerQuiet = true then e.homeWheel .softReset none else e

/-- The next step of a lift move to VIEW that waits, the executing order, the self-test, RESUME's recovery, a soft reset, an
entry, start-up and the way to DEEP_OFF. -/
def Engine.proceed (e : Engine) : Engine :=
  let e := ((advanceTest 24 e.viewLift.advanceOrder).advanceRecovery).advanceRehoming
  e.advanceEntry.advanceStartLift.advanceDeepOff

/-! ## The end of a wheel homing (R55, R56) -/

/-- The cause that a WHEEL notice names (R55, R93, R172). -/
def HomingUse.cause : HomingUse → HomingCause
  | .startUp => .start
  | .softReset => .reset
  | .change => .change
  | .wake => .wake
  | .resume => .resume
  | .selfTest => .selfTest
  | .recovery => .recovery
  | .cover => .recovery
  | .order => .recovery

/-- A WHEEL_CHANGE order with an expected id in 1..254 stands in the strike queue (R56). -/
def Engine.changeQueued (e : Engine) : Bool :=
  e.seq.queue.any fun o =>
    match o.kind with
    | .wheelChange x => x ≠ 0
    | _ => false

/-- The homing's read code may be ADOPTED: no order stands besides the one that started it, and that is no WHEEL_CHANGE
(R56). That order executes, or is known by its number once RESUME has made it QUEUED again (log 97). -/
def Engine.adopts (use : HomingUse) (e : Engine) : Bool :=
  e.seq.stage = [] &&
  match use with
  | .order => if e.executing.isSome then e.seq.queue.length ≤ 1 else e.seq.queue.all fun o => e.wheel.starter = some o.number
  | .change => false
  | _ => e.seq.queue = []

/-- The outcome of a homing that read a code (R56). -/
def Engine.outcome (h : Homing) (code : Nat) (e : Engine) : HomingOutcome :=
  match h.required with
  | none => .mounted
  | some r => if r = code then .mounted else if e.adopts h.use then .adopted else .mismatch

/-- The composition wheel after MOUNTED (R56). -/
def Engine.mountedWheel (h : Homing) (code : Nat) (e : Engine) : Option Nat :=
  if e.comp.wheel = none then some code
  else
    match h.use.cause with
    | .start => some code
    | .reset => if e.changeQueued then e.comp.wheel else some code
    | .recovery => if e.changeQueued then e.comp.wheel else some code
    | .change => if h.required = none then some code else e.comp.wheel
    | .wake => e.comp.wheel
    | .resume => e.comp.wheel
    | .selfTest => e.comp.wheel

/-- A homing that is part of RESUME's recovery ends: that part is over, and its fault has the head order's fields, or no order
(R102, R171). -/
def Engine.wheelRecovered (fault : Option (FaultKind × Option Nat)) (e : Engine) : Engine :=
  let e : Engine := { e with seq := { e.seq with recovery := { e.seq.recovery with wheel := false } } }
  match fault with
  | some f => e.headFault f.1 f.2
  | none => e

/-- What the end of a homing does next for what started it. `fault` is the fault that its outcome gives, with the
required id kept (R56, R59, R61, R93, R102, R171, R184 to R186). In a wake a MISMATCH writes its fault in the event of its
WHEEL notice (R158), behind POWER(RUN) when the wake ends there, and a FAILED homing writes it when the wake ends (R184;
log 48). The MISMATCH of a cover or recovery homing is outside an order, while one executes too (R102; log 85). A homing of an
order that RESUME has made QUEUED again is part of RESUME's recovery, when that order has left since too (log 97). A WHEEL_CHANGE that is the X order does not complete (R76, R170). -/
def Engine.afterHoming (h : Homing) (fault : Option (FaultKind × Option Nat)) (e : Engine) : Engine :=
  match h.use with
  | .change =>
    match fault, e.executing with
    | some f, some o => e.orderFault f.1 o f.2
    | none, some o => if e.faults.empty then e.completeOrder o else e
    | _, none => e.wheelRecovered fault
  | .order =>
    match fault, e.executing with
    | some f, some o => e.orderFault f.1 o f.2
    | none, some _ => e
    | _, none => e.wheelRecovered fault
  | .resume => e.wheelRecovered fault
  | .startUp =>
    let e := match fault with
      | some f => e.looseFault f.1 f.2
      | none => e
    if e.power.startUp = some .wheel then e.startLift else e
  | .softReset =>
    let e := match fault with
      | some f => e.looseFault f.1 f.2
      | none => e
    (e.editRehoming fun r => { r with wheel := .done }).endSoftReset
  | .wake =>
    let e := e.editWake fun w => { w with wheel := .done }
    match fault with
    | some (.wheelMismatch, r) => e.endWake.looseFault .wheelMismatch r
    | some f => (e.editWake fun w => { w with faults := w.faults ++ [f] }).endWake
    | none => e.endWake
  | .cover =>
    match fault with
    | some (.wheelMismatch, r) => e.looseFault .wheelMismatch r
    | some f => e.editTest (·.suffer f.1)
    | none => e
  | .recovery =>
    match fault with
    | some (.wheelMismatch, r) => e.looseFault .wheelMismatch r
    | some f => Engine.editTest (·.suffer f.1) { e with wheel := { e.wheel with recoveryFailed := true } }
    | none => e
  | .selfTest => e.editTest (·.next)

/-- A homing that read a code ends at rest on petal 0 (R56, R91). -/
def Engine.homingEnds (h : Homing) (code : Nat) (e : Engine) : Engine :=
  let outcome := e.outcome h code
  if h.use = .selfTest ∧ outcome = .mismatch then e.testWheelFailed .mismatch (some code) h.required
  else
    let comp := match outcome with
      | .mounted => e.mountedWheel h code
      | .adopted => some code
      | .mismatch => e.comp.wheel
      | .failed => e.comp.wheel
    let e : Engine :=
      { e with
        wheel := { e.wheel with
          state := .settled, petal := some 0, mounted := some code, timer := none, homing := none
          lostByTest := false, recoveryFailed := false }
        comp := { e.comp with wheel := comp } }
    let e := (e.offer (.wheel h.use.cause outcome (some code) h.required)).prepare
    e.afterHoming h (if outcome = .mismatch then some (.wheelMismatch, h.required) else none)

/-- A homing that fails leaves the wheel UNKNOWN and the mounted wheel none (R55, R56, R91). Its notice carries no id, in PARK
too, where a code has been read (log 93). -/
def Engine.homingFails (h : Homing) (kind : FaultKind) (e : Engine) : Engine :=
  if h.use = .selfTest then e.testWheelFailed .failed none h.required
  else
    let e : Engine :=
      { e with wheel := { e.wheel with
          state := .unknown, petal := none, mounted := none, timer := none, homing := none } }
    let e := (e.offer (.wheel h.use.cause .failed none h.required)).prepare
    e.afterHoming h (some (kind, none))

/-! ## The end of a carriage motion (R87 to R89) -/

/-- The carriage is IDLE at the end of a motion, and what it moved for goes on. -/
def Engine.carriageArrives (e : Engine) : Engine :=
  match e.carriage.use with
  | .order => e
  | .startUp =>
    if e.power.startUp = some .carriage then
      Engine.startWheel { e with seq := { e.seq with printPoint := e.carriage.position } }
    else e
  | .softReset =>
    Engine.endSoftReset (Engine.editRehoming (fun r => { r with carriage := .done })
      { e with seq := { e.seq with printPoint := e.carriage.position } })
  | .wake => (e.editWake fun w => { w with carriage := .done }).endWake
  | .resume => e.carriageRecovered
  | .selfTest => e.carriageRecovered

/-- A carriage motion has failed with CARRIAGE_STALL; the carriage is LOST (R88, R89, R102, R171, R184 to R186). -/
def Engine.carriageFails (e : Engine) : Engine :=
  let e := e.loseCarriage
  match e.carriage.use with
  | .order => e.channelFault .carriageStall
  | .startUp => if e.power.startUp = some .carriage then (e.looseFault .carriageStall none).startWheel else e
  | .softReset => ((e.looseFault .carriageStall none).editRehoming fun r => { r with carriage := .done }).endSoftReset
  | .wake =>
    Engine.endWake (e.editWake fun w =>
      { w with carriage := .done, faults := w.faults ++ [(.carriageStall, none)] })
  | .resume =>
    e.carriageRecovered.headFault .carriageStall none
  | .selfTest => if (e.selfTest.map (·.step)) = some 2 then e.editTest fun t => (t.fail 2).next else e

/-- The carriage stands at 0 at the end of a homing, and goes where the homing leads (R89). -/
def Engine.carriageHomed (e : Engine) : Engine :=
  let use := e.carriage.use
  let e : Engine := { e with carriage := { e.carriage with state := .idle, position := 0, rightwards := false, timer := none } }
  let e := match e.carriage.after with
    | .stay => e
    | .to x => e.carriageTo x use
    | .leftMargin => e.carriageTo e.set.left use
  if e.carriage.state = .idle then e.carriageArrives else e

/-! ## The end of a lift move (R96, R102) -/

/-- A lift move has failed with LIFT_STALL; the lift is UNKNOWN (R76, R77, R102, R171, R176, R181, R182, R185). While an
order executes, whatever began the move, the fault is that order's (R76). An entry that waits for the move is given up, also
where another cause began it (R181). A move that a soft reset left running belongs to no test and no RESUME any more (R96,
R186; log 49). -/
def Engine.liftFails (e : Engine) : Engine :=
  let e : Engine := { e with lift := { e.lift with state := .unknown, viaView := false, timer := none } }
  if e.power.deepOff = some .lifting then e.enterDeepOff
  else
  if e.selfTest.isSome then
    let e := if e.lift.use = .resume then e.liftRecovered else e
    e.editTest fun t => if e.lift.use = .selfTest then (t.fail t.step).next else t.suffer .liftStall
  else
  let e := e.giveUpEntry
  match e.lift.use with
  | .order => e.channelFault .liftStall
  | .viewTimer => e.channelFault .liftStall
  | .fault => e.channelFault .liftStall
  | .entry => e.channelFault .liftStall
  | .resume =>
    if e.seq.recovery.lift then e.liftRecovered.headFault .liftStall none
    else e.channelFault .liftStall
  | .startUp =>
    let e := e.looseFault .liftStall none
    if e.power.startUp = some .lift then e.endStartUp else e
  | .selfTest => e.channelFault .liftStall
  | .deepOff => e

/-! ## Homings that start of themselves (R61, R93) -/

/-- No WHEEL_CHANGE order is in the strike queue. -/
def Engine.noChange (e : Engine) : Bool :=
  e.seq.queue.all fun o =>
    match o.kind with
    | .wheelChange _ => false
    | _ => true

/-- A soft reset's re-homing still has the wheel homing to make (R93, R186). -/
def Engine.resetHomes (e : Engine) : Bool :=
  match e.power.softReset with
  | some r => r.wheel ≠ .done
  | none => false

/-- The conditions of a recovery homing (R61). After one has failed, the next waits for the cover-closed event. -/
def Engine.needsRecovery (e : Engine) : Bool :=
  (e.comp.wheel.isNone || (e.wheel.mounted.isNone && e.wheel.lostByTest)) && e.power.state = .run && e.faults.empty &&
  e.noChange && e.selfTest.isNone && e.wheel.homing.isNone && !e.resetHomes && e.levels.closed

/-- A recovery homing starts (R61). -/
def Engine.startRecovery (e : Engine) : Engine := e.homeWheel .recovery e.comp.wheel

/-- A cover homing starts at the cover-closed event under these conditions (R93). -/
def Engine.needsCoverHoming (e : Engine) : Bool :=
  e.power.state = .run && e.faults.empty && e.wheel.homing.isNone && !e.resetHomes &&
  match e.executing with
  | some o => match o.kind with
    | .wheelChange _ => false
    | _ => true
  | none => true

end Sys2Proof.Machine
end

