-- ==== Sys2Proof/Machine/Release.lean ====
section
/-! DEFINITION. Releasing a line: its group of orders, the direction under BIDI, the release stage, and the split of a
word wrap (R20, R21, R38, R41, R42, R45, R53, R147). -/

set_option Elab.async false

namespace Sys2Proof.Machine

/-- The horizontal target of the last order ahead, or the carriage position (R41). -/
def Engine.lastTarget (e : Engine) : Nat :=
  match (e.seq.queue ++ e.seq.stage).getLast? with
  | some o => o.horizontal
  | none => e.carriage.position

/-- The carriage counter is read where R41 needs it (log 3). -/
def Engine.readForBidi (e : Engine) : Engine :=
  if e.set.bidi && e.seq.queue = [] && e.seq.stage = [] then e.readCounter else e

/-- The distance between two positions. -/
def apart (a b : Nat) : Nat := (a - b) + (b - a)

/-- The STRIKE of a printing cell of a released line, with the underline width it was composed with (R38, R40, R53). -/
def Engine.strikeOf (c : Cell) (e : Engine) : OrderKind × Nat :=
  let glyph := match c.content with
    | .glyph g => some g
    | _ => none
  (.strike (strikeFields e.set e.slots e.comp.wheel c.start c.width c.under glyph c.bold c.underline
    c.word), c.start)

/-- The STRIKE orders of a placed line in the order they print, and the closing order's target under BIDI
(R38, R41, R42). -/
def Engine.printOrder (cells : List Cell) (e : Engine) : List (OrderKind × Nat) × Nat :=
  let printing := cells.filter fun c => !c.plainSpace
  let strikes := printing.map fun c => e.strikeOf c
  let p := e.lastTarget
  match printing.head?, printing.getLast? with
  | some first, some last =>
    if e.set.bidi && apart p last.finish < apart p first.start then (strikes.reverse, first.start)
    else (strikes, last.finish)
  | _, _ => (strikes, p)

/-- The closing order of a released line (R38). -/
def Settings.closing (set : Settings) (target : Nat) : OrderKind × Nat :=
  if set.bidi then (.feed set.spacing, target) else (.ret set.spacing, set.left)

/-- The release of cells as a LINE group into the release stage (R20 steps 2 and 3, R32, R38, R45, R147). The closing
order carries the vertical target that composition expects after it (R63). -/
def Engine.releaseCells (final : Bool) (cells : List Cell) (e : Engine) : Engine :=
  let (kept, dropped, flags) := finishLine (placeLine e.set final cells)
  let e := e.readForBidi
  let (strikes, target) := e.printOrder kept
  let id := e.groupId
  let orders := numberOrders id e.comp.vTarget e.seq.nextOrder strikes
  let last := e.set.closing target
  let closing : Order :=
    { number := e.seq.nextOrder + orders.length, kind := last.1, group := id, horizontal := last.2
      vertical := e.comp.vTarget + BitVec.ofNat 16 e.set.spacing }
  let e : Engine := { e with esc := e.esc.release flags }
  let e := if dropped = [] then e else (e.bell .margin).deleteAll (cellWords dropped)
  let e := e.openGroup .line (orders.length + 1)
  let held := e.set.spell = .hold && e.unresolved orders
  { e with seq := { e.seq with
      stage := orders ++ [closing], stageState := if held then .held else .filling
      nextOrder := e.seq.nextOrder + orders.length + 1 } }

/-- The vertical target after a line advance. -/
def Engine.nextLine (e : Engine) : VPos := e.comp.vTarget + BitVec.ofNat 16 e.set.spacing

/-- The release of the open line by RETURN or PARAGRAPH_RETURN (R20). -/
def Engine.releaseLine (final : Bool) (e : Engine) : Engine :=
  let before := e.comp.vTarget
  let e := e.closeWord
  let e := e.releaseCells final (e.comp.line.filter (·.unreleased))
  let e := e.freshLine
  let e : Engine :=
    { e with comp := { e.comp with vTarget := e.nextLine, bellRung := false, marginRelease := false } }
  (e.updateRelocate before).rebuild

/-- The split of a word wrap: the cells before the last run of plain spaces that has a non-space cell before it, and
the cells after it (R21). -/
def splitLine (cells : List Cell) : Option (List Cell × List Cell) :=
  let tail := (cells.reverse.takeWhile fun c => !c.plainSpace).reverse
  let head := cells.take (cells.length - tail.length)
  let body := (head.reverse.dropWhile (·.plainSpace)).reverse
  if body = [] then none else some (body, tail)

/-- Cells placed from a start with the widths they have (R18, R21). -/
def restart (x : Nat) (cells : List Cell) : List Cell := placeCells (fun _ => 0) x 0 cells

/-- A word wrap: the cells before the split are released, those after it begin the new line (R21 steps 1 to 3). As at any
LINE-mode release, the row 0 window goes back to the line's start (R152; log 72). -/
def Engine.wrap (body tail : List Cell) (e : Engine) : Engine :=
  let e := (e.releaseCells false body).freshLine
  let moved := restart e.set.left tail
  let e : Engine :=
    { e with comp := { e.comp with
        vTarget := e.nextLine, bellRung := false, cursor := e.set.left + naturalWidth tail } }
  e.rebuild.withLine moved

/-- A line is started: every cell leaves, and the cursor goes to the left margin (R18). -/
def Engine.startLine (e : Engine) : Engine := if e.lineOpen then e else e.freshLine

end Sys2Proof.Machine
end

