-- ==== Sys2Proof/Machine/Keys.lean ====
section
/-! DEFINITION. The keys, taken from the head of the key queue: printable keys, the space, and the control keys that
act on the line and the page (R1 to R4, R6 to R21). -/

set_option Elab.async false

namespace Sys2Proof.Machine

/-! ## Taking the head key (R3) -/

/-- The conditions of R3 that hold for every key. -/
def Engine.takesKeys (e : Engine) : Bool :=
  e.power.state = .run && e.comp.wheel.isSome && e.faults.empty &&
  e.seq.queue.all fun o => o.kind ≠ .wheelChange 0

/-- A key that makes orders, or releases a line, needs the release stage EMPTY and room in the strike queue (R3, R4). -/
def Engine.hasRoom (n : Nat) (e : Engine) : Bool := e.seq.stageState = .empty && n ≤ e.room

/-- The entries that a MOVE needs (R4, R10). -/
def Engine.moveNeeds (e : Engine) : Nat := if e.coalesces then 0 else 1

/-- The head key of a kind is taken when R3 allows it, and composed; otherwise it waits. -/
def Engine.takeKey (kind : KeyEntry → Bool) (ready : KeyEntry → Engine → Bool) (compose : KeyEntry → Engine → Engine)
    (e : Engine) : Engine :=
  match e.comp.keys with
  | [] => e
  | k :: rest =>
    if kind k && e.takesKeys && ready k e then
      compose k { e with comp := { e.comp with keys := rest, composed := true } }
    else e

/-- A control key of a code (chapter 11). -/
def isControl (code : Nat) (k : KeyEntry) : Bool := k.code.toNat = code

/-! ## Printable keys (R6, R18, R21) -/

/-- What a key is going to do. -/
inductive Plan where
  /-- Dropped with a bell; `disarms` an armed margin release. -/
  | drop (bell : Bell) (disarms : Bool)
  /-- Composed with a width. -/
  | cell (width : Nat)
  /-- A word wrap comes first. -/
  | wraps (width : Nat) (body tail : List Cell)
deriving DecidableEq, Repr

/-- The margin and line-full tests of a cell of a width in DIRECT mode (R6, steps 3 and 4). -/
def Engine.planDirect (w : Nat) (e : Engine) : Plan :=
  if 1599 < e.comp.cursor + w then .drop .margin true
  else if e.set.right < e.comp.cursor + w ∧ e.comp.marginRelease = false then .drop .margin true
  else if cellAt e.comp.cursor e.comp.line = none ∧ 200 ≤ e.comp.line.length then .drop .lineFull false
  else .cell w

/-- The tests of a cell of a width in LINE mode, on the open line (R18, R21). `split` gives the word wrap. -/
def Engine.planLine (w : Nat) (split : List Cell → Option (List Cell × List Cell)) (e : Engine) : Plan :=
  if e.set.right < e.comp.cursor + w ∧ e.comp.marginRelease = false then
    match split e.comp.line with
    | some (body, tail) => .wraps w body tail
    | none => .drop .margin true
  else if 1599 < e.comp.cursor + w then .drop .margin true
  else if 200 ≤ e.comp.line.length then .drop .lineFull false
  else .cell w

/-- The plan of a printable key, on the line it finds or starts (R6, R18). -/
def Engine.planPrintable (k : KeyEntry) (e : Engine) : Plan :=
  match lookGlyph e.slots e.comp.wheel k.code with
  | .noWheel => .drop .noWheel false
  | .absent => .drop .absent false
  | .found _ units _ s =>
    match e.set.mode with
    | .direct => e.planDirect (glyphWidth e.set.pitch s units)
    | .line => e.startLine.planLine (glyphWidth e.set.pitch s units) splitLine

/-- Whether a plan may be carried out now: a drop always, the rest by R3 and R4. -/
def Engine.mayCarry (p : Plan) (needs : Nat) (e : Engine) : Bool :=
  match p with
  | .drop _ _ => true
  | .cell _ => e.set.mode = .line || e.hasRoom needs
  | .wraps _ _ _ => e.seq.stageState = .empty

/-- A key dropped with a bell (R6). -/
def Engine.dropKey (b : Bell) (disarms : Bool) (e : Engine) : Engine :=
  Engine.bell b
    { e with comp := { e.comp with marginRelease := if disarms then false else e.comp.marginRelease } }

/-- The word of a printable key: letters have one, other glyphs have none (R2, R7). -/
def Engine.wordFor (code : Byte) (e : Engine) : Engine × Option WordId :=
  if (letterCode code).isSome then
    let e := e.findWord e.comp.cursor
    (e, e.comp.word)
  else (e, none)

/-- After the cell of a printable key stands: the cursor, margin release, the bell, the relocate point, and the close
by a non-letter (R6 step 7, R7, R129). -/
def Engine.afterPrintable (code : Byte) (w : Nat) (before : VPos) (e : Engine) : Engine :=
  let e := e.moveCursor (e.comp.cursor + w)
  let e : Engine := { e with comp := { e.comp with marginRelease := false } }
  let e := (e.bellTest).updateRelocate before
  if (letterCode code).isSome then e else e.closeWord

/-- A printable key composed in DIRECT mode (R6, steps 5 to 7). -/
def Engine.strikeKey (k : KeyEntry) (w : Nat) (e : Engine) : Engine :=
  let before := e.comp.vTarget
  let (e, word) := e.wordFor k.code
  let x := e.comp.cursor
  let fields := strikeFields e.set e.slots e.comp.wheel x w none (some k.code) k.bold k.underline word
  let number := e.seq.nextOrder
  let e := e.append (.strike fields) 0 x e.comp.vTarget
  let e := e.place
    { start := x, width := w, content := .glyph k.code, bold := k.bold, underline := k.underline, word := word
      origin := .queued number }
  e.afterPrintable k.code w before

/-- A printable key composed into the open line (R18). The cell keeps the underline width of this moment (R40). -/
def Engine.lineKey (k : KeyEntry) (w : Nat) (before : VPos) (e : Engine) : Engine :=
  let (e, word) := e.wordFor k.code
  let e := e.place
    { start := e.comp.cursor, width := w, content := .glyph k.code, bold := k.bold, underline := k.underline
      word := word, origin := .unreleased, under := underWidth e.set.pitch e.slot }
  e.afterPrintable k.code w before

/-- The printable key taken (R6, R18, R21). A line is started before the tests of LINE mode. -/
def Engine.composePrintable (k : KeyEntry) (e : Engine) : Engine :=
  let plan := e.planPrintable k
  let before := e.comp.vTarget
  match e.set.mode with
  | .direct =>
    match plan with
    | .drop b d => e.dropKey b d
    | .cell w => e.strikeKey k w
    | .wraps _ _ _ => e
  | .line =>
    let e := e.startLine
    match plan with
    | .drop b d => e.dropKey b d
    | .cell w => e.lineKey k w before
    | .wraps w body tail =>
      let e := e.wrap body tail
      match e.planLine w fun _ => none with
      | .cell w => e.lineKey k w before
      | .drop b d => (e.dropKey b d).updateRelocate before
      | .wraps _ _ _ => e

/-- The printable key, when it stands at the head (R3, R6). -/
def Engine.takePrintable (e : Engine) : Engine :=
  e.takeKey (fun k => isGlyph k.code) (fun k e => e.mayCarry (e.planPrintable k) 1) (fun k e => e.composePrintable k)

/-! ## The space (R9, R18, R21) -/

/-- The split of a space's wrap: everything before the trailing spaces, which a line with a non-space cell has (R21). -/
def splitSpace (cells : List Cell) : Option (List Cell × List Cell) :=
  let body := (cells.reverse.dropWhile (·.plainSpace)).reverse
  if body = [] then none else some (body, [])

/-- The plan of a space key (R9, R18, R27, R40). -/
def Engine.planSpace (k : KeyEntry) (e : Engine) : Plan :=
  match e.slot with
  | none => .drop .noWheel false
  | some s =>
    if k.underline && s.underlinePetal.isNone then .drop .absent false
    else
      match e.set.mode with
      | .direct => e.planDirect (spaceWidth e.set.pitch s)
      | .line => e.startLine.planLine (spaceWidth e.set.pitch s) splitSpace

/-- The cell of a space key, with the underline width of an UNRELEASED one (R40). -/
def spaceCell (k : KeyEntry) (x w : Nat) (origin : Origin) (under : Option Nat) : Cell :=
  { start := x, width := w, content := if k.underline then .underlinedSpace else .space, bold := false
    underline := k.underline, word := none, origin := origin, under := under }

/-- After the cell of a space stands: the cursor, the close, the bell (R9). -/
def Engine.afterSpace (w : Nat) (e : Engine) : Engine :=
  ((e.moveCursor (e.comp.cursor + w)).closeWord).bellTest

/-- A space composed in DIRECT mode: a MOVE, or a STRIKE without a glyph (R9). -/
def Engine.spaceDirect (k : KeyEntry) (w : Nat) (e : Engine) : Engine :=
  let x := e.comp.cursor
  if k.underline then
    let fields := strikeFields e.set e.slots e.comp.wheel x w none none false true none
    let number := e.seq.nextOrder
    let e := e.append (.strike fields) 0 x e.comp.vTarget
    (e.place (spaceCell k x w (.queued number) none)).afterSpace w
  else
    let e := e.appendMove (x + w)
    (e.place (spaceCell k x w (.queued e.tailNumber) none)).afterSpace w

/-- The entries that a space needs (R4). -/
def Engine.spaceNeeds (k : KeyEntry) (e : Engine) : Nat := if k.underline then 1 else e.moveNeeds

/-- The space taken (R9, R18, R21). A space that wraps is itself discarded. -/
def Engine.composeSpace (k : KeyEntry) (e : Engine) : Engine :=
  let plan := e.planSpace k
  match e.set.mode with
  | .direct =>
    match plan with
    | .drop b d => e.dropKey b d
    | .cell w => e.spaceDirect k w
    | .wraps _ _ _ => e
  | .line =>
    let e := e.startLine
    match plan with
    | .drop b d => e.dropKey b d
    | .cell w => (e.place (spaceCell k e.comp.cursor w .unreleased (underWidth e.set.pitch e.slot))).afterSpace w
    | .wraps _ body tail => (e.closeWord).wrap body tail

/-- The space, when it stands at the head (R3, R9). -/
def Engine.takeSpace (e : Engine) : Engine :=
  e.takeKey (fun k => k.code = 0x20) (fun k e => e.mayCarry (e.planSpace k) (e.spaceNeeds k)) (fun k e => e.composeSpace k)

/-! ## RETURN and PARAGRAPH_RETURN (R13, R20) -/

/-- RETURN without an open line (R13). -/
def Engine.returnOrder (e : Engine) : Engine :=
  let before := e.comp.vTarget
  let e := (e.append (.ret e.set.spacing) 0 e.set.left e.nextLine).closeWord
  let e := e.freshLine
  let e : Engine :=
    { e with comp := { e.comp with vTarget := e.nextLine, bellRung := false, marginRelease := false } }
  (e.updateRelocate before).rebuild

/-- RETURN or PARAGRAPH_RETURN taken (R13, R20). -/
def Engine.takeReturn (code : Nat) (final : Bool) (e : Engine) : Engine :=
  e.takeKey (isControl code)
    (fun _ e => if e.lineOpen then e.seq.stageState = .empty else e.hasRoom 1)
    (fun _ e => if e.lineOpen then e.releaseLine final else e.returnOrder)

/-! ## BACKSPACE (R12, R19) -/

/-- The position that BACKSPACE moves to in DIRECT mode, if it moves (R12). -/
def Engine.backTarget (e : Engine) : Option Nat :=
  if e.comp.cursor ≤ e.set.left then none
  else
    let x := match cellBefore e.comp.cursor e.comp.line with
      | some c => c.start
      | none => e.comp.cursor - backDistance e.set.pitch e.slot
    some (max e.set.left x)

/-- The last cell of the open line is removed, and its word reopens as the current word (R19). -/
def Engine.removeLast (e : Engine) : Engine :=
  match e.comp.line.getLast? with
  | none => e
  | some c =>
    let e := (e.withLine e.comp.line.dropLast).moveCursor c.start
    match c.word with
    | none => e
    | some id =>
      let e := e.handEdited id
      { e with comp := { e.comp with word := some id } }

/-- BACKSPACE taken (R12, R19). -/
def Engine.takeBackspace (e : Engine) : Engine :=
  e.takeKey (isControl 0x03)
    (fun _ e => e.lineOpen || e.backTarget.isNone || e.hasRoom e.moveNeeds)
    (fun _ e =>
      if e.lineOpen then (e.closeWord).removeLast
      else
        match e.backTarget with
        | none => e
        | some x => ((e.appendMove x).closeWord).moveCursor x)

/-! ## TAB (R11) -/

/-- The position that TAB moves to, if it moves (R11). -/
def Engine.tabTarget (e : Engine) : Option Nat :=
  if e.set.right ≤ e.comp.cursor then none
  else
    match e.set.tabs.find? fun t => decide (e.comp.cursor < t ∧ t ≤ e.set.right) with
    | some t => some t
    | none => some e.set.right

/-- TAB taken (R11, R19). -/
def Engine.takeTab (e : Engine) : Engine :=
  e.takeKey (isControl 0x04)
    (fun _ e => e.lineOpen || e.tabTarget.isNone || e.hasRoom e.moveNeeds)
    (fun _ e =>
      if e.lineOpen then e.bell .lineOpen
      else
        match e.tabTarget with
        | none => e.closeWord
        | some x => (((e.appendMove x).closeWord).moveCursor x).bellTest)

/-! ## MARGIN_RELEASE and the vertical keys (R8, R14) -/

/-- MARGIN_RELEASE taken (R8). -/
def Engine.takeMarginRelease (e : Engine) : Engine :=
  e.takeKey (isControl 0x05) (fun _ _ => true)
    (fun _ e => { e with comp := { e.comp with marginRelease := true } })

/-- A signed number of platen steps as a shift of a vertical position. -/
def vShift (steps : Int) : VPos := BitVec.ofInt 16 steps

/-- A vertical key without an open line: one FEED, the vertical target, the rebuild (R14). -/
def Engine.feedKey (steps : Int) (e : Engine) : Engine :=
  let v := e.comp.vTarget + vShift steps
  let e := (e.append (.feed steps) 0 e.comp.cursor v).closeWord
  Engine.rebuild { e with comp := { e.comp with vTarget := v } }

/-- A vertical key taken (R14, R19). -/
def Engine.takeVertical (code : Nat) (steps : Settings → Int) (e : Engine) : Engine :=
  e.takeKey (isControl code) (fun _ e => e.lineOpen || e.hasRoom 1)
    (fun _ e => if e.lineOpen then e.bell .lineOpen else e.feedKey (steps e.set))

/-! ## RELOCATE (R16) -/

/-- The signed feed of RELOCATE (R16). -/
def Engine.relocateFeed (e : Engine) : Int := (e.comp.relocateV - e.comp.vTarget).toInt

/-- The cursor and the vertical target are already at the relocate point (R16). -/
def Engine.atRelocate (e : Engine) : Bool := e.comp.cursor = e.comp.relocateH && e.comp.vTarget = e.comp.relocateV

/-- The entries that RELOCATE needs (R4). -/
def Engine.relocateNeeds (e : Engine) : Nat :=
  let move := if e.comp.cursor = e.comp.relocateH then 0 else 1
  if e.comp.vTarget = e.comp.relocateV then (if move = 0 then 0 else e.moveNeeds) else 1 + move

/-- RELOCATE without an open line (R16). -/
def Engine.relocateKey (e : Engine) : Engine :=
  let feeds := e.comp.vTarget ≠ e.comp.relocateV
  let moves := e.comp.cursor ≠ e.comp.relocateH
  if e.atRelocate then e
  else
    let e := if feeds then e.append (.feed e.relocateFeed) 0 e.comp.cursor e.comp.relocateV else e
    let e : Engine := { e with comp := { e.comp with vTarget := e.comp.relocateV } }
    let e := if moves then e.appendMove e.comp.relocateH else e
    let e := e.closeWord.moveCursor e.comp.relocateH
    if feeds then e.rebuild else e

/-- RELOCATE taken (R16, R19). -/
def Engine.takeRelocate (e : Engine) : Engine :=
  e.takeKey (isControl 0x0D) (fun _ e => e.lineOpen || e.atRelocate || e.hasRoom e.relocateNeeds)
    (fun _ e => if e.lineOpen then e.bell .lineOpen else e.relocateKey)

end Sys2Proof.Machine
end

