-- ==== Sys2Proof/Machine/Correct.lean ====
section
/-! DEFINITION. The correction keys: on the open line (R19), and on paper by withdrawal and LIFT orders
(R114 to R124). -/

set_option Elab.async false

namespace Sys2Proof.Machine

/-! ## The open line (R19) -/

/-- CORRECT_WORD on the open line: trailing spaces, then the last word and what stands after it (R19). The current word is
none afterwards, without being closed (log 82). -/
def Engine.cutLastWord (e : Engine) : Engine :=
  let line := (e.comp.line.reverse.dropWhile (·.plainSpace)).reverse
  match (line.reverse.find? fun c => c.word.isSome).bind (·.word) with
  | none =>
    match e.comp.line.drop line.length with
    | c :: _ => (e.withLine line).moveCursor c.start
    | [] => e
  | some id =>
    let after := (line.reverse.dropWhile fun c => c.word ≠ some id).reverse
    let kept := (after.reverse.dropWhile fun c => c.word = some id).reverse
    let x := match line.drop kept.length with
      | c :: _ => c.start
      | [] => e.comp.cursor
    let e := ((e.withLine kept).moveCursor x).handDeleted id
    { e with comp := { e.comp with word := none } }

/-- CORRECT_LINE on the open line: every cell leaves, and every word is deleted (R19). The current word is none afterwards,
without being closed (log 82). -/
def Engine.cutOpenLine (e : Engine) : Engine :=
  let x := match e.comp.line with
    | c :: _ => c.start
    | [] => e.comp.cursor
  let words := cellWords e.comp.line
  let e := ((e.withLine []).moveCursor x).deleteAll words
  { e with comp := { e.comp with word := none } }

/-! ## The target set (R114 to R117, R120) -/

/-- The members of a target set: STRIKE orders to withdraw, records to lift, and the executing STRIKE when its LIFT has no
record to refer to: one that has not fired, and one whose record has been emptied (R120; log 79). `running` is the executing
STRIKE when it is in the set, with or without a LIFT of its own to come. `earlier` holds the records that the set leaves out
because a LIFT order of an earlier key refers to them (R114, R124). -/
structure Targets where
  orders : List Order := []
  records : List Record := []
  bound : Option Order := none
  running : Option Order := none
  earlier : List Record := []
deriving DecidableEq, Repr

/-- The word of a STRIKE. -/
def Order.word (o : Order) : Option WordId :=
  match o.kind with
  | .strike f => f.word
  | _ => none

/-- A STRIKE order. -/
def Order.isStrike (o : Order) : Bool :=
  match o.kind with
  | .strike _ => true
  | _ => false

/-- A LIFT order refers to a record already (R114). -/
def Engine.recordLifted (slot : Nat) (e : Engine) : Bool :=
  (e.seq.queue ++ e.seq.stage).any fun o => o.kind = .lift (.record slot)

/-- A LIFT order is bound to an order already, or waits for its completion. -/
def Engine.orderLifted (number : Nat) (e : Engine) : Bool :=
  (e.seq.queue ++ e.seq.stage).any fun o => o.kind = .lift (.bound number) || o.kind = .lift (.emptied number)

/-- The STRIKE orders at the vertical target whose position and word pass a test. -/
def Engine.strikesAt (p : Nat → Option WordId → Bool) (e : Engine) : List Order :=
  e.seq.queue.filter fun o => o.isStrike && o.vertical = e.comp.vTarget && p o.horizontal o.word

/-- The records at the vertical target whose position and word pass a test. -/
def Engine.recordsAt (p : Nat → Option WordId → Bool) (e : Engine) : List Record :=
  e.memory.records.filter fun r => r.vertical = e.comp.vTarget && p r.horizontal r.word

/-- The target set of a test on positions and words (R114). The executing STRIKE joins it by its own place, and so does its
record, wherever the platen stood when it was made (R120). A record that a LIFT refers to is left out (R114). -/
def Engine.targets (p : Nat → Option WordId → Bool) (e : Engine) : Targets :=
  let strikes := e.strikesAt p
  let running := strikes.find? fun o => o.state = .executing
  let own := running.bind (·.record)
  let records := e.memory.records.filter fun r =>
    (r.vertical = e.comp.vTarget && p r.horizontal r.word) || own = some r.slot
  { orders := strikes.filter fun o => o.state ≠ .executing
    records := records.filter fun r => !e.recordLifted r.slot
    bound := running.bind fun o => if o.record = none ∧ e.orderLifted o.number = false then some o else none
    running := running
    earlier := records.filter fun r => e.recordLifted r.slot }

/-- The LIFT orders that a target set needs at a position. -/
def Targets.liftsAt (x : Nat) (t : Targets) : Nat :=
  (t.records.filter fun r => r.horizontal = x).length + (t.bound.toList.filter fun o => o.horizontal = x).length

/-- The positions of the members that the key disposes of. -/
def Targets.positions (t : Targets) : List Nat :=
  t.orders.map (·.horizontal) ++ t.records.map (·.horizontal) ++ t.bound.toList.map (·.horizontal)

/-- The positions of all members, an executing STRIKE whose LIFT an earlier key made among them (R118, R120). -/
def Targets.places (t : Targets) : List Nat := t.positions ++ t.running.toList.map (·.horizontal)

/-- A number in its place in a descending list without repeats. -/
def insertDown (x : Nat) : List Nat → List Nat
  | [] => [x]
  | y :: ys => if y < x then x :: y :: ys else if y = x then y :: ys else y :: insertDown x ys

/-- The positions taken: whole, in descending order, while their LIFT orders do not exceed the capacity (R117). -/
def takePositions (t : Targets) : Nat → List Nat → List Nat
  | _, [] => []
  | n, x :: xs => if n + t.liftsAt x ≤ 201 then x :: takePositions t (n + t.liftsAt x) xs else []

/-- The newest members of a list. -/
def newest {α : Type} (n : Nat) (l : List α) : List α := l.drop (l.length - n)

/-- The set cut to 201 LIFT orders, and the positions taken (R117). With too many at the first position alone, its 201
newest are taken. An executing STRIKE at a position not taken leaves the set too; the records of `earlier` need no LIFT and
are as they were. -/
def cutTargets (t : Targets) (positions : List Nat) : Targets × List Nat :=
  let sorted := positions.foldl (fun l x => insertDown x l) []
  let taken := match takePositions t 0 sorted, sorted with
    | [], x :: _ => [x]
    | l, _ => l
  let records := t.records.filter fun r => r.horizontal ∈ taken
  let bound := t.bound.bind fun o => if o.horizontal ∈ taken then some o else none
  ({ orders := t.orders.filter fun o => o.horizontal ∈ taken
     records := newest (201 - bound.toList.length) records
     bound := bound
     running := t.running.filter fun o => o.horizontal ∈ taken
     earlier := t.earlier }, taken)

/-- The wheel test fails (R118). -/
def Engine.wrongWheel (t : Targets) (e : Engine) : Bool :=
  t.records.any (fun r => e.comp.wheel ≠ some r.wheel) || (t.running.isSome && e.wheel.mounted ≠ e.comp.wheel)

/-! ## Disposal (R119 to R123) -/

/-- A LIFT bound to one of some orders. -/
def Order.boundTo (numbers : List Nat) (o : Order) : Bool :=
  match o.kind with
  | .lift (.bound n) => n ∈ numbers
  | _ => false

/-- The withdrawal of orders (R119). A LIFT bound to a withdrawn STRIKE, which RESUME had made QUEUED again, leaves with it
in the same way: it cannot outlive its order (R120; log 80). -/
def Engine.withdraw (orders : List Order) (e : Engine) : Engine :=
  let numbers := orders.map (·.number)
  let leaves := fun (o : Order) => decide (o.number ∈ numbers) || o.boundTo numbers
  let gone := e.seq.queue.filter leaves
  let e : Engine := { e with seq := { e.seq with queue := e.seq.queue.filter fun o => !leaves o } }
  (gone.foldl (fun e o => e.loseFrom o.group id) e).closeGroups

/-- What the LIFT of an executing STRIKE without a record refers to: the order that has still to fire, or no record
(R120; log 79). -/
def Order.liftRef (o : Order) : LiftRef := if o.fired = [] then .bound o.number else .emptied o.number

/-- An item in its place by descending position, after those already there (R121). -/
def insertLift (x : OrderKind × Nat) : List (OrderKind × Nat) → List (OrderKind × Nat)
  | [] => [x]
  | y :: ys => if y.2 < x.2 then x :: y :: ys else y :: insertLift x ys

/-- The LIFT orders of a target set in group order: descending position, the newest first (R121). -/
def Targets.lifts (t : Targets) : List (OrderKind × Nat) :=
  let bound := t.bound.toList.map fun o => (OrderKind.lift o.liftRef, o.horizontal)
  let records := t.records.reverse.map fun r => (OrderKind.lift (.record r.slot), r.horizontal)
  (bound ++ records).foldl (fun l x => insertLift x l) []

/-- The CORRECTION group joins the strike queue when it fits, and the release stage otherwise (R121). -/
def Engine.placeLifts (lifts : List (OrderKind × Nat)) (e : Engine) : Engine :=
  if lifts = [] then e
  else
    let orders := numberOrders e.groupId e.comp.vTarget e.seq.nextOrder lifts
    let e := e.openGroup .correction orders.length
    let e : Engine := { e with seq := { e.seq with nextOrder := e.seq.nextOrder + orders.length } }
    if orders.length ≤ e.room then { e with seq := { e.seq with queue := e.seq.queue ++ orders } }
    else { e with seq := { e.seq with stage := orders, stageState := .filling } }

/-- The words of a correction are handed over, and the current word settled (R123). -/
def Engine.settleWords (words : List WordId) (e : Engine) : Engine :=
  let e := match e.comp.word with
    | some id => if id ∈ words then e else e.handClosed id
    | none => e
  let edited := words.filter fun id => e.comp.line.any fun c => c.word = some id
  let gone := words.filter fun id => !e.comp.line.any fun c => c.word = some id
  let e := (e.editAll edited).deleteAll gone
  let current : Option WordId := match cellBefore e.comp.cursor e.comp.line with
    | some c => if c.finish = e.comp.cursor then (c.word.bind fun id => if id ∈ edited then some id else none) else none
    | none => none
  let e : Engine := { e with comp := { e.comp with word := current } }
  e.closeAll (edited.filter fun w => current != some w)

/-- A cell to be removed is not remembered: no STRIKE, record or executing STRIKE of the target set stands at its start, and
no record there that the set leaves out for the LIFT of an earlier key (R124). A STRIKE or a record of another word is in
neither (R116; log 102). -/
def Targets.forgets (t : Targets) (c : Cell) : Bool :=
  !c.plainSpace && !decide (c.start ∈ t.places) && !t.earlier.any fun r => r.horizontal = c.start

/-- A correction on paper: the wheel test, the disposal, and the effects on the line and the words (R114, steps 3 to 6).
`t` is the target set, `gone` says which cells leave. With nothing removed and nothing disposed of the cursor stays (R122;
log 88). -/
def Engine.correctPaper (t : Targets) (gone : Cell → Bool) (e : Engine) : Engine :=
  let cells := e.comp.line.filter gone
  let words := (cellWords cells ++ t.orders.filterMap (·.word) ++ t.records.filterMap (·.word)).eraseDups
  let lost := cells.any t.forgets
  let starts := cells.map (·.start) ++ t.positions
  let x := match starts with
    | s :: rest => rest.foldl min s
    | [] => e.comp.cursor
  let e := (e.withdraw t.orders).placeLifts t.lifts
  let e := (e.withLine (e.comp.line.filter fun c => !gone c)).moveCursor x
  let e := e.settleWords words
  if lost then e.bell .notRemembered else e

/-- The key finds nothing to target (R124). -/
def Engine.nothingToLift (e : Engine) : Engine := e.closeWord.bell .notRemembered

/-- A plain space cell is removed (R115). -/
def Engine.removeSpace (c : Cell) (e : Engine) : Engine :=
  ((e.withLine (e.comp.line.filter fun d => d.start ≠ c.start)).moveCursor c.start).closeWord

/-- CORRECT of a glyph cell or an underlined space cell (R115). -/
def Engine.correctCell (c : Cell) (e : Engine) : Engine :=
  let (t, _) := cutTargets (e.targets fun x _ => x = c.start) [c.start]
  if e.wrongWheel t then e.bell .wheel else e.correctPaper t fun d => d.start = c.start

/-- CORRECT on paper (R115). -/
def Engine.correctOne (e : Engine) : Engine :=
  match cellBefore e.comp.cursor e.comp.line with
  | none => e.nothingToLift
  | some c => if c.plainSpace then e.removeSpace c else e.correctCell c

/-- The plain spaces left of the cursor are removed one by one (R116). -/
def removeSpaces : Nat → Engine → Engine
  | 0, e => e
  | fuel + 1, e =>
    match cellBefore e.comp.cursor e.comp.line with
    | some c => if c.plainSpace then removeSpaces fuel (e.removeSpace c) else e
    | none => e

/-- The word run around a cell: its neighbours in the line that carry its id (R116). -/
def wordRun (c : Cell) (id : WordId) (line : List Cell) : List Cell :=
  let left := line.filter fun d => decide (d.start ≤ c.start)
  let right := line.filter fun d => decide (c.start < d.start)
  (left.reverse.takeWhile fun d => d.word = some id).reverse ++ right.takeWhile fun d => d.word = some id

/-- CORRECT_WORD on the word run of a cell (R116). DESIGN CHOICE: when the LIFTs of the run exceed 201, its cells at positions
not taken leave with the others and count as not remembered, while their orders and records stay (log 100). A refusal by the wheel test leaves `before` as it was (R118). -/
def Engine.correctRun (before : Engine) (c : Cell) (id : WordId) (e : Engine) : Engine :=
  let run := wordRun c id e.comp.line
  let lo := (run.head?.map (·.start)).getD c.start
  let hi := (run.getLast?.map (·.start)).getD c.start
  let inside := fun x w => decide (lo ≤ x ∧ x ≤ hi) && w = some id
  let t₀ := e.targets inside
  let (t, _) := cutTargets t₀ t₀.places
  if e.wrongWheel t then before.bell .wheel
  else e.correctPaper t fun d => decide (lo ≤ d.start ∧ d.start ≤ hi) && d.word = some id

/-- CORRECT_WORD on paper (R116). -/
def Engine.correctWord (before : Engine) : Engine :=
  let e := removeSpaces before.comp.line.length before
  match cellBefore e.comp.cursor e.comp.line with
  | none => e.nothingToLift
  | some c =>
    match c.word with
    | some id => Engine.correctRun before c id e
    | none =>
      let (t, _) := cutTargets (e.targets fun x _ => x = c.start) [c.start]
      if e.wrongWheel t then before.bell .wheel else e.correctPaper t fun d => d.start = c.start

/-- CORRECT_LINE on paper (R117). -/
def Engine.correctLine (e : Engine) : Engine :=
  let inside := fun x => decide (e.set.left ≤ x ∧ x < e.comp.cursor)
  let cells := e.comp.line.filter fun c => inside c.start
  if cells = [] ∧ e.strikesAt (fun x _ => inside x) = [] ∧ e.recordsAt (fun x _ => inside x) = [] then e.nothingToLift
  else
    let t₀ := e.targets fun x _ => inside x
    let (t, taken) := cutTargets t₀ (cells.map (·.start) ++ t₀.places)
    if e.wrongWheel t then e.bell .wheel else e.correctPaper t fun c => decide (c.start ∈ taken)

/-- A correction key taken: on the open line, or on paper when the release stage is EMPTY (R19, R114). -/
def Engine.takeCorrection (code : Nat) (onLine onPaper : Engine → Engine) (e : Engine) : Engine :=
  e.takeKey (isControl code) (fun _ e => e.lineOpen || e.hasRoom 0)
    (fun _ e => if e.lineOpen then onLine e else onPaper e)

end Sys2Proof.Machine
end

