-- ==== Sys2Proof/Machine/Screen.lean ====
section
/-! DEFINITION. The display cells derived from their sources, and what is sent to the module after each event
(R151 to R160). -/

set_option Elab.async false

namespace Sys2Proof.Machine

/-- A steady cell of a code. -/
def steady (c : Byte) : DisplayCell := { shape := .code c, underline := false, blink := .steady }

/-- The words that the table marks SUSPECT (R153). -/
def Spelling.suspects (s : Spelling) : List WordId := (s.words.filter fun w => w.state = .suspect).map (·.id)

/-- The number of suspects in the line (R157). -/
def Engine.suspectCount (e : Engine) : Nat :=
  ((cellWords e.comp.line).filter fun id => id ∈ e.spell.suspects).length

/-! ## Row 0 (R152, R153) -/

/-- The character and underline of a cell of the line (R153). -/
def Cell.shown (c : Cell) : Shape × Bool :=
  match c.content with
  | .glyph g => (if g = 0x7F then .box else .code g, c.underline)
  | .space => (.code 0x20, false)
  | .underlinedSpace => (.code 0x20, true)

/-- A column of row 0: the cell of the line with an index, or none past its end (R153). -/
def columnCell (cursor : Nat) (suspects : List WordId) (index : Nat) (c : Option Cell) : DisplayCell :=
  match c with
  | none => { shape := .code 0x20, underline := false, blink := if index = cursor then .cursor else .steady }
  | some c =>
    let suspect := match c.word with
      | some id => decide (id ∈ suspects)
      | none => false
    { shape := c.shown.1, underline := c.shown.2
      blink := if index = cursor then .cursor else if suspect then .blink else .steady }

/-- Forty columns of row 0 from a rest of the line, the first with an index. -/
def rowZero (cursor : Nat) (suspects : List WordId) : Nat → Nat → List Cell → List DisplayCell
  | 0, _, _ => []
  | n + 1, index, line =>
    columnCell cursor suspects index line.head? :: rowZero cursor suspects n (index + 1) line.tail

/-! ## Row 1 (R155 to R160) -/

/-- A text in a field of a width, left-aligned. -/
def padRight (width : Nat) (t : List Byte) : List Byte := (t ++ List.replicate width 0x20).take width

/-- The pitch field (R155). -/
def pitchText (setting : Pitch) (slot : Option WheelSlot) : List Byte :=
  let shown : Option PitchClass := match slot with
    | some s => some (effectivePitch setting s.pitch)
    | none =>
      match setting with
      | .auto => none
      | .p10 => some .p10
      | .p12 => some .p12
      | .p15 => some .p15
      | .ps => some .ps
  match shown with
  | none => chars ['-', '-', '-']
  | some .p10 => chars ['1', '0', ' ']
  | some .p12 => chars ['1', '2', ' ']
  | some .p15 => chars ['1', '5', ' ']
  | some .ps => chars ['P', 'S', ' ']

/-- The mode field (R155). -/
def Mode.text : Mode → List Byte
  | .direct => chars ['D', 'I', 'R', ' ']
  | .line => chars ['L', 'I', 'N', 'E']

/-- The alignment field (R155). -/
def Align.text : Align → List Byte
  | .left => chars ['L']
  | .right => chars ['R']
  | .center => chars ['C']
  | .justify => chars ['J']

/-- The distribution field (R155). -/
def Distribute.text : Distribute → List Byte
  | .leading => chars ['L']
  | .trailing => chars ['T']
  | .spread => chars ['S']
  | .truncate => chars ['X']

/-- A digit's code. -/
def digit (n : Nat) : Byte := byteOf (48 + n % 10)

/-- A number up to 999 in three columns, right-aligned without leading zeros (R156). -/
def rightThree (n : Nat) : List Byte :=
  [if 100 ≤ n then digit (n / 100) else 0x20, if 10 ≤ n then digit (n / 10) else 0x20, digit n]

/-- The distance field (R156). -/
def distanceText (right cursor : Nat) : List Byte :=
  (if right < cursor then chars ['-'] else chars [' ']) ++ rightThree (((right - cursor) + (cursor - right)) / 12)

/-- The spelling field (R157). -/
def spellText (setting : SpellSetting) (dict : DictState) (n : Nat) : List Byte :=
  if setting = .off then chars ['S', 'P', '-', ' ']
  else if dict ≠ .ready then chars ['S', 'P', '?', ' ']
  else if n ≤ 9 then chars ['S', 'P', ' '] ++ [digit n]
  else chars ['S', 'P', ' ', '+']

/-- The wheel field (R155). -/
def mountedText (mounted : Option Nat) : List Byte :=
  match mounted with
  | none => chars ['W', '-', '-', '-']
  | some n => chars ['W'] ++ threeDigits n

/-- The fault texts (R159). -/
def FaultKind.text : FaultKind → List Byte
  | .carriageStall => chars ['C', 'A', 'R', 'R', 'I', 'A', 'G', 'E', ' ', 'J', 'A', 'M']
  | .wheelStall => chars ['W', 'H', 'E', 'E', 'L', ' ', 'S', 'T', 'A', 'L', 'L']
  | .wheelHomeFail => chars ['W', 'H', 'E', 'E', 'L', ' ', 'N', 'O', ' ', 'H', 'O', 'M', 'E']
  | .platenStall => chars ['P', 'L', 'A', 'T', 'E', 'N', ' ', 'S', 'T', 'A', 'L', 'L']
  | .liftStall => chars ['L', 'I', 'F', 'T', ' ', 'S', 'T', 'A', 'L', 'L']
  | .hammerStuck => chars ['H', 'A', 'M', 'M', 'E', 'R', ' ', 'S', 'T', 'U', 'C', 'K']
  | .coverOpen => chars ['C', 'O', 'V', 'E', 'R', ' ', 'O', 'P', 'E', 'N']
  | .wheelMismatch => chars ['W', 'R', 'O', 'N', 'G', ' ', 'W', 'H', 'E', 'E', 'L']
  | .noWheelTable => chars ['N', 'O', ' ', 'W', 'H', 'E', 'E', 'L', ' ', 'T', 'B', 'L']
  | .absentPetal => chars ['N', 'O', ' ', 'P', 'E', 'T', 'A', 'L']
  | .liftWheel => chars ['L', 'I', 'F', 'T', ' ', 'W', 'H', 'E', 'E', 'L']
  | .paperOut => chars ['P', 'A', 'P', 'E', 'R', ' ', 'O', 'U', 'T']
  | .ribbonEnd => chars ['R', 'I', 'B', 'B', 'O', 'N', ' ', 'E', 'N', 'D']
  | .tapeEnd => chars ['T', 'A', 'P', 'E', ' ', 'E', 'N', 'D']

/-- The message area (R158, R159). -/
def Message.text : Message → List Byte
  | .nothing => []
  | .timed t => t
  | .fault k => k.text

/-- The forty codes of the status row (R155). -/
def Engine.statusRow (e : Engine) : List Byte :=
  pitchText e.set.pitch e.slot ++ [0x20] ++ e.set.mode.text ++ [0x20] ++ e.set.align.text ++ e.set.distribute.text ++
  [0x20] ++ distanceText e.set.right e.comp.cursor ++ [0x20] ++
  spellText e.set.spell e.spell.dict e.suspectCount ++ [0x20] ++ mountedText e.wheel.mounted ++ [0x20] ++
  padRight 13 e.display.message.text

/-- A code of a host text: 20h..7Eh as itself, any other as BOX (R160). -/
def hostCell (c : Byte) : DisplayCell :=
  { shape := if 0x20 ≤ c.toNat ∧ c.toNat ≤ 0x7E then .code c else .box, underline := false, blink := .steady }

/-- Row 1 (R155, R160). -/
def Engine.rowOne (e : Engine) : List DisplayCell :=
  match e.display.override with
  | some codes => codes.map hostCell
  | none => e.statusRow.map steady

/-- The 80 display cells (R151). -/
def Engine.derive (e : Engine) : List DisplayCell :=
  rowZero e.comp.index e.spell.suspects 40 e.display.window (e.comp.line.drop e.display.window) ++ e.rowOne

/-- The cells that differ from those sent before, with their places (R151). -/
def changedCells : Nat → List DisplayCell → List DisplayCell → List SentCell
  | _, _, [] => []
  | n, old, c :: cs =>
    let rest := changedCells (n + 1) old.tail cs
    if old.head? = some c then rest else { row := n / 40, column := n % 40, cell := c } :: rest

/-- The blink phase that the module works with (R154). -/
def Display.phaseDue (d : Display) : Option Bool := if d.lit then some d.phaseOn else none

/-- After an event the cells are derived again, and the changed ones sent, with the blink phase when it has changed; while
dark there are none (R151, R154). -/
def Engine.refresh (e : Engine) : Engine :=
  let cells := if e.display.lit then e.derive else []
  let phase := e.display.phaseDue
  { e with display := { e.display with
      cells := cells, sent := changedCells 0 e.display.cells cells
      modulePhase := phase, sentPhase := if phase = e.display.modulePhase then none else phase } }

/-! ## What the module shows (R154, R161) -/

/-- What stands at a place of the display: a filled block, or a character with its underline (R154). -/
inductive Sight where
  | block
  | character (shape : Shape) (underline : Bool)
deriving DecidableEq, Repr

/-- A display cell as the module shows it in a phase, by its blink mode (R154). -/
def DisplayCell.sight (phaseOn : Bool) (c : DisplayCell) : Sight :=
  match c.blink, phaseOn with
  | .steady, _ => .character c.shape c.underline
  | .blink, true => .character c.shape c.underline
  | .blink, false => .character (.code 0x20) false
  | .cursor, true => .block
  | .cursor, false => .character c.shape c.underline

/-- The 80 places of the display as the module shows them (R154). -/
def Engine.sights (e : Engine) : List Sight := e.display.cells.map (·.sight e.display.phaseOn)

/-- The contrast output DCON: the level while the display is lit, inactive while it is dark (R161). -/
def Engine.contrastOutput (e : Engine) : Option Nat := if e.display.lit then some e.set.contrast else none

end Sys2Proof.Machine
end

