-- ==== Sys2Proof/Machine/Setting.lean ====
section
/-! DEFINITION. The SET requests (R23 to R25, R28, R37, R51, R52, R134, R161, R180, R193). -/

set_option Elab.async false

namespace Sys2Proof.Machine

/-- What a request does: its reply after the type, and the part after it. -/
abbrev Operation := Engine → List Byte × Engine

/-- A request whose reply is its status alone. -/
def statusOnly (op : Engine → Status × Engine) : Operation := fun e => ([(op e).1.byte], (op e).2)

/-- A SET request: its length is checked with its code (R193). -/
def Engine.takeSet (op : Engine → Status × Engine) (e : Engine) : Engine :=
  e.answer 0x02 true plainRefusal false (statusOnly op)

/-- A change of the settings. -/
def Engine.withSet (f : Settings → Settings) (e : Engine) : Engine := { e with set := f e.set }

/-- A selector takes a listed value, and refuses any other MALFORMED (R193). -/
def Engine.choose {α : Type} (v : Option α) (f : α → Settings → Settings) (e : Engine) : Status × Engine :=
  match v with
  | some a => (.ok, e.withSet (f a))
  | none => (.malformed, e)

/-- SET MODE (R25). DESIGN CHOICE: an unlisted value is MALFORMED (R193) also where a listed one would be BUSY, since neither
rule puts one refusal first (log 19). -/
def Engine.opMode (value : Byte) (e : Engine) : Status × Engine :=
  match modeOfCode value.toNat with
  | none => (.malformed, e)
  | some m =>
    if e.comp.line ≠ [] ∨ e.seq.stageState ≠ .empty then (.busy, e)
    else (.ok, e.withSet fun s => { s with mode := m })

/-- A fixed pitch class (R28). -/
def PitchClass.fixed (p : PitchClass) : Bool := p ≠ .ps

/-- The composition wheel's READY slot has a fixed class (R28, R175). -/
def Engine.fixedWheel (e : Engine) : Bool :=
  match e.slot with
  | some s => s.pitch.fixed
  | none => false

/-- SET PITCH (R28). -/
def Engine.opPitch (value : Byte) (e : Engine) : Status × Engine :=
  match pitchOfCode value.toNat with
  | none => (.malformed, e)
  | some p =>
    if p = .ps ∧ e.fixedWheel = true then (.mismatch, e)
    else (.ok, e.withSet fun s => { s with pitch := p })

/-- A left margin as it is taken (R23). -/
def leftTaken (right n : Nat) : Nat := min (min 1599 n) (right - 120)

/-- A right margin as it is taken (R23). -/
def rightTaken (left n : Nat) : Nat := max (min 1599 n) (left + 120)

/-- SET LEFT_MARGIN (R23). -/
def Engine.opLeftMargin (position : Half) (e : Engine) : Status × Engine :=
  let n := leftTaken e.set.right position.toNat
  (okOrClamped (n ≠ position.toNat), e.withSet fun s => { s with left := n })

/-- SET RIGHT_MARGIN (R23). -/
def Engine.opRightMargin (position : Half) (e : Engine) : Status × Engine :=
  let n := rightTaken e.set.left position.toNat
  (okOrClamped (n ≠ position.toNat), e.withSet fun s => { s with right := n })

/-- A tab stop in its place (R24). -/
def insertTab (t : Nat) : List Nat → List Nat
  | [] => [t]
  | u :: us => if t < u then t :: u :: us else if t = u then u :: us else u :: insertTab t us

/-- TAB_SET (R24). -/
def Engine.opTabSet (position : Half) (e : Engine) : Status × Engine :=
  let t := min 1599 position.toNat
  let s := okOrClamped (t ≠ position.toNat)
  if t ∈ e.set.tabs then (s, e)
  else if 16 ≤ e.set.tabs.length then (.full, e)
  else (s, e.withSet fun set => { set with tabs := insertTab t set.tabs })

/-- TAB_CLEAR (R24). -/
def Engine.opTabClear (position : Half) (e : Engine) : Status × Engine :=
  if position.toNat ∈ e.set.tabs then
    (.ok, e.withSet fun set => { set with tabs := set.tabs.filter fun t => t ≠ position.toNat })
  else (.absent, e)

/-- TAB_CLEAR_ALL (R24). -/
def Engine.opTabClearAll (e : Engine) : Status × Engine := (.ok, e.withSet fun set => { set with tabs := [] })

/-- SET ALIGN (R37). -/
def Engine.opAlign (value : Byte) (e : Engine) : Status × Engine :=
  e.choose (alignOfCode value.toNat) fun a s => { s with align := a }

/-- SET DISTRIBUTE (R37). -/
def Engine.opDistribute (value : Byte) (e : Engine) : Status × Engine :=
  e.choose (distributeOfCode value.toNat) fun d s => { s with distribute := d }

/-- SET IMPRESSION (R51). -/
def Engine.opImpression (value : Byte) (e : Engine) : Status × Engine :=
  let n := clampTo 1 3 value.toNat
  (okOrClamped (n ≠ value.toNat), e.withSet fun s => { s with impression := n })

/-- SET ENERGY (R52). -/
def Engine.opEnergy (cls setting : Byte) (onTime : Half) (e : Engine) : Status × Engine :=
  if 3 < cls.toNat ∨ setting.toNat = 0 ∨ 3 < setting.toNat then (.malformed, e)
  else
    let t := clampTo 400 2000 onTime.toNat
    (okOrClamped (t ≠ onTime.toNat),
      e.withSet fun s => { s with energy := setEnergyEntry s.energy cls.toNat setting.toNat t })

/-- SET SPACING (R25). -/
def Engine.opSpacing (halfLines : Byte) (e : Engine) : Status × Engine :=
  e.choose (spacingOfCode halfLines.toNat) fun n s => { s with spacing := n }

/-- SET BELL_ZONE (R25). -/
def Engine.opBellZone (steps : Half) (e : Engine) : Status × Engine :=
  let n := min 240 steps.toNat
  (okOrClamped (n ≠ steps.toNat), e.withSet fun s => { s with bellZone := n })

/-- SET SPELL, which frees a HELD release stage when it leaves HOLD (R134). -/
def Engine.opSpell (value : Byte) (e : Engine) : Status × Engine :=
  match spellOfCode value.toNat with
  | none => (.malformed, e)
  | some v => (.ok, (e.withSet fun s => { s with spell := v }).settle)

/-- SET BIDI (R37). -/
def Engine.opBidi (value : Byte) (e : Engine) : Status × Engine :=
  e.choose (bidiOfCode value.toNat) fun b s => { s with bidi := b }

/-- The standby timer at a number of units; 0 stops it (R180). -/
def standbyTime (n : Nat) : Timer := if n = 0 then none else some (n * 5000000)

/-- SET STANDBY_TIMER (R180). -/
def Engine.opStandbyTimer (units : Half) (e : Engine) : Status × Engine :=
  let n := min 255 units.toNat
  let e : Engine :=
    if e.power.timer.isSome then { e with power := { e.power with timer := standbyTime n } } else e
  (okOrClamped (n ≠ units.toNat), e.withSet fun s => { s with standby := n })

/-- SET CONTRAST (R161). -/
def Engine.opContrast (level : Byte) (e : Engine) : Status × Engine :=
  let n := min 15 level.toNat
  (okOrClamped (n ≠ level.toNat), e.withSet fun s => { s with contrast := n })

/-- The SET request of a payload: a code that is not listed, or with a length that does not match, is MALFORMED and
changes nothing (R193). -/
def Engine.opSet (payload : List Byte) (e : Engine) : Status × Engine :=
  match payload with
  | [c] => if c = 0x07 then e.opTabClearAll else (.malformed, e)
  | [c, v] =>
    match c.toNat with
    | 0x01 => e.opMode v
    | 0x02 => e.opPitch v
    | 0x08 => e.opAlign v
    | 0x09 => e.opDistribute v
    | 0x0A => e.opImpression v
    | 0x0C => e.opSpacing v
    | 0x0E => e.opSpell v
    | 0x0F => e.opBidi v
    | 0x11 => e.opContrast v
    | _ => (.malformed, e)
  | [c, hi, lo] =>
    match c.toNat with
    | 0x03 => e.opLeftMargin (halfOf hi lo)
    | 0x04 => e.opRightMargin (halfOf hi lo)
    | 0x05 => e.opTabSet (halfOf hi lo)
    | 0x06 => e.opTabClear (halfOf hi lo)
    | 0x0D => e.opBellZone (halfOf hi lo)
    | 0x10 => e.opStandbyTimer (halfOf hi lo)
    | _ => (.malformed, e)
  | [c, cls, setting, hi, lo] => if c = 0x0B then e.opEnergy cls setting (halfOf hi lo) else (.malformed, e)
  | _ => (.malformed, e)

/-! ## The meanings -/

/-- SET_MODE. -/
def execSetMode (value : Byte) (s : State) : Host.Outcome State Fault Refusal :=
  .next (s.on fun e => (e.takeSet (·.opMode value)).refresh)

/-- SET_PITCH. -/
def execSetPitch (value : Byte) (s : State) : Host.Outcome State Fault Refusal :=
  .next (s.on fun e => (e.takeSet (·.opPitch value)).refresh)

/-- SET_LEFT_MARGIN. -/
def execSetLeftMargin (position : Half) (s : State) : Host.Outcome State Fault Refusal :=
  .next (s.on fun e => (e.takeSet (·.opLeftMargin position)).refresh)

/-- SET_RIGHT_MARGIN. -/
def execSetRightMargin (position : Half) (s : State) : Host.Outcome State Fault Refusal :=
  .next (s.on fun e => (e.takeSet (·.opRightMargin position)).refresh)

/-- TAB_SET. -/
def execTabSet (position : Half) (s : State) : Host.Outcome State Fault Refusal :=
  .next (s.on fun e => (e.takeSet (·.opTabSet position)).refresh)

/-- TAB_CLEAR. -/
def execTabClear (position : Half) (s : State) : Host.Outcome State Fault Refusal :=
  .next (s.on fun e => (e.takeSet (·.opTabClear position)).refresh)

/-- TAB_CLEAR_ALL. -/
def execTabClearAll (s : State) : Host.Outcome State Fault Refusal :=
  .next (s.on fun e => (e.takeSet (·.opTabClearAll)).refresh)

/-- SET_ALIGN. -/
def execSetAlign (value : Byte) (s : State) : Host.Outcome State Fault Refusal :=
  .next (s.on fun e => (e.takeSet (·.opAlign value)).refresh)

/-- SET_DISTRIBUTE. -/
def execSetDistribute (value : Byte) (s : State) : Host.Outcome State Fault Refusal :=
  .next (s.on fun e => (e.takeSet (·.opDistribute value)).refresh)

/-- SET_IMPRESSION. -/
def execSetImpression (value : Byte) (s : State) : Host.Outcome State Fault Refusal :=
  .next (s.on fun e => (e.takeSet (·.opImpression value)).refresh)

/-- SET_ENERGY. -/
def execSetEnergy (cls setting : Byte) (onTime : Half) (s : State) : Host.Outcome State Fault Refusal :=
  .next (s.on fun e => (e.takeSet (·.opEnergy cls setting onTime)).refresh)

/-- SET_SPACING. -/
def execSetSpacing (halfLines : Byte) (s : State) : Host.Outcome State Fault Refusal :=
  .next (s.on fun e => (e.takeSet (·.opSpacing halfLines)).refresh)

/-- SET_BELL_ZONE. -/
def execSetBellZone (steps : Half) (s : State) : Host.Outcome State Fault Refusal :=
  .next (s.on fun e => (e.takeSet (·.opBellZone steps)).refresh)

/-- SET_SPELL. -/
def execSetSpell (value : Byte) (s : State) : Host.Outcome State Fault Refusal :=
  .next (s.on fun e => (e.takeSet (·.opSpell value)).refresh)

/-- SET_BIDI. -/
def execSetBidi (value : Byte) (s : State) : Host.Outcome State Fault Refusal :=
  .next (s.on fun e => (e.takeSet (·.opBidi value)).refresh)

/-- SET_STANDBY_TIMER. -/
def execSetStandbyTimer (units : Half) (s : State) : Host.Outcome State Fault Refusal :=
  .next (s.on fun e => (e.takeSet (·.opStandbyTimer units)).refresh)

/-- SET_CONTRAST. -/
def execSetContrast (level : Byte) (s : State) : Host.Outcome State Fault Refusal :=
  .next (s.on fun e => (e.takeSet (·.opContrast level)).refresh)

end Sys2Proof.Machine
end

