-- ==== Sys2Proof/Machine/Requests.lean ====
section
/-! DEFINITION. The requests of the key queue, the wheel store, the composition line, the checker, the display, and
the status and identity records (R1, R17, R44, R49, R50, R58, R136 to R138, R142, R149, R160, R192, R194, R195). -/

set_option Elab.async false

namespace Sys2Proof.Machine

/-- A request's effect on the queues is followed by what they do at once. -/
def settled (op : Operation) : Operation := fun e => ((op e).1, (op e).2.settle)

/-- A reply of a status alone, with nothing changed. -/
def refuse (s : Status) (e : Engine) : List Byte × Engine := ([s.byte], e)

/-! ## KEY (R1) -/

/-- A key code of R1. -/
def isKeyCode (c : Byte) : Bool := (1 ≤ c.toNat && c.toNat ≤ 0x0D) || (0x20 ≤ c.toNat && c.toNat ≤ 0x7F)

/-- An entry as it joins the key queue (R1, layouts). -/
def keyEntry (k : KeyBytes) : KeyEntry :=
  { code := k.code, bold := k.attributes.getLsbD 0, underline := k.attributes.getLsbD 1 }

/-- KEY (R1). Any KEY request that reaches the key queue wakes the part, and gives up an entry whose lift moves, one with an
invalid code too (R181, R183; log 18). -/
def Engine.opKey (entries : List KeyBytes) : Operation := fun e =>
  if !entries.all fun k => isKeyCode k.code then ([Status.malformed.byte, 0], e.giveUpEntry.wakeIfResting)
  else
    let k := min entries.length (64 - e.comp.keys.length)
    let joined := (entries.take k).map keyEntry
    let e' : Engine :=
      { e with
        comp := { e.comp with keys := e.comp.keys ++ joined }
        power := { e.power with pendingEntry := if k = 0 then e.power.pendingEntry else none } }
    ([(if k = entries.length then Status.ok else Status.full).byte, byteOf k], e'.wakeIfResting)

/-- The KEY request. -/
def Engine.takeKeyRequest (entries : List KeyBytes) (e : Engine) : Engine :=
  e.answer 0x01 (1 ≤ entries.length && entries.length ≤ 16) keyRefusal false (settled (Engine.opKey entries))

/-! ## WHEEL_TABLE (R49, R50) -/

/-- The slot of a number. -/
def Engine.slotAt (n : Nat) (e : Engine) : WheelSlot := e.slots.getD n {}

/-- A slot in use: the wheel of composition or the mechanism, with orders standing (R49). -/
def Engine.slotBusy (s : WheelSlot) (e : Engine) : Bool :=
  s.state = .ready && (e.comp.wheel = some s.id || e.wheel.mounted = some s.id) &&
  !(e.seq.queue = [] && e.seq.stage = [])

/-- WHEEL_TABLE piece 0 (R49). -/
def Engine.opPiece0 (slot wheel cls space under : Byte) : Operation := fun e =>
  if e.power.state = .starting then refuse .busy e
  else if 3 < slot.toNat then refuse .malformed e
  else
    match pitchClassOfCode cls with
    | none => refuse .malformed e
    | some p =>
      if wheel = 0 ∨ wheel = 255 then refuse .malformed e
      else if e.slotBusy (e.slotAt slot.toNat) then refuse .busy e
      else
        let units := clampTo 2 8 space.toNat
        let s : WheelSlot :=
          { state := .loading 1, id := wheel.toNat, pitch := p, space := units, underline := some under, entries := [] }
        ([(okOrClamped (units ≠ space.toNat)).byte], { e with slots := e.slots.set slot.toNat s })

/-- A slot with the entries of a piece (R50). -/
def WheelSlot.takePiece (piece : Nat) (entries : List GlyphBytes) (s : WheelSlot) : WheelSlot :=
  let s : WheelSlot := { s with entries := s.entries ++ entries.map entryOf }
  if piece = 12 then s.finish else { s with state := .loading (piece + 1) }

/-- The entries of a piece that a slot keeps: entry 95, the last of piece 12, is ignored (R46, R49). -/
def keptEntries (piece : Nat) (entries : List GlyphBytes) : List GlyphBytes :=
  if piece = 12 then entries.take 7 else entries

/-- WHEEL_TABLE piece 1..12, or with a higher index (R50). -/
def Engine.opPiece (slot piece : Byte) (entries : List GlyphBytes) : Operation := fun e =>
  if e.power.state = .starting then refuse .busy e
  else if 3 < slot.toNat then refuse .malformed e
  else
    let s := e.slotAt slot.toNat
    match s.state with
    | .loading next =>
      if piece.toNat = next ∧ next ≤ 12 then
        ([(okOrClamped ((keptEntries next entries).any entryClamped)).byte],
          { e with slots := e.slots.set slot.toNat (s.takePiece next entries) })
      else ([Status.malformed.byte], { e with slots := e.slots.set slot.toNat {} })
    | .ready => refuse .malformed e
    | .empty => refuse .malformed e

/-- The WHEEL_TABLE request with piece 0. -/
def Engine.takePiece0 (slot wheel cls space under : Byte) (e : Engine) : Engine :=
  e.answer 0x04 true plainRefusal false (settled (Engine.opPiece0 slot wheel cls space under))

/-- The WHEEL_TABLE request with another piece: 8 entries, and an index other than 0. -/
def Engine.takePieceN (slot piece : Byte) (entries : List GlyphBytes) (e : Engine) : Engine :=
  e.answer 0x04 (entries.length = 8 && piece ≠ 0) plainRefusal false (settled (Engine.opPiece slot piece entries))

/-! ## WHEEL_CHANGE (R58) and PAPER (R17) -/

/-- A group of one order for a request, with its id in the reply (R66). -/
def Engine.soleOrder (kind : OrderKind) (group : GroupKind) (h : Nat) (e : Engine) : Engine :=
  (e.openGroup group 1).append kind e.groupId h e.comp.vTarget

/-- WHEEL_CHANGE (R58). -/
def Engine.opWheelChange (expected : Byte) : Operation := fun e =>
  if expected = 255 then refuse .malformed e
  else if e.power.state = .starting then refuse .busy e
  else if !e.faults.empty || e.seq.stageState ≠ .empty || e.room = 0 then refuse .busy e
  else
    let id := e.groupId
    let e := e.soleOrder (.wheelChange expected.toNat) .wheelChange 800
    let e : Engine :=
      if expected = 0 then e else { e with comp := { e.comp with wheel := some expected.toNat } }
    ([Status.ok.byte, byteOf id], e.wakeIfResting)

/-- The WHEEL_CHANGE request. -/
def Engine.takeWheelChange (expected : Byte) (e : Engine) : Engine :=
  e.answer 0x05 true plainRefusal false (settled (Engine.opWheelChange expected))

/-- PAPER, for a load or an eject (R17, R192). The current word is closed with its cells still in the line, so that it is
judged and not SKIPPED (R130; log 73). -/
def Engine.opPaper (load : Bool) : Operation := fun e =>
  if e.power.state = .starting then refuse .busy e
  else if e.power.state ≠ .run then refuse .state e
  else if e.seq.stageState ≠ .empty || e.room = 0 || e.lineOpen || !e.faults.empty then refuse .busy e
  else
    let id := e.groupId
    let e := (e.soleOrder (if load then .paperLoad else .paperEject) .paper e.set.left).closeWord
    let e : Engine :=
      if load then
        { e with comp := { e.comp with vTarget := 0, relocateH := e.set.left, relocateV := 0 } }
      else e
    let e := e.freshLine
    ([Status.ok.byte, byteOf id], { e with comp := { e.comp with bellRung := false } })

/-- The PAPER request of a payload byte (R192). -/
def Engine.takePaper (value : Byte) (e : Engine) : Engine :=
  e.answer 0x1C true plainRefusal false
    (if value = 0 then settled (Engine.opPaper true)
     else if value = 1 then settled (Engine.opPaper false)
     else refuse .malformed)

/-! ## READ_LINE (R194) -/

/-- The origin's code (layouts). -/
def Origin.code : Origin → Nat
  | .queued _ => 0
  | .onPaper _ => 1
  | .unreleased => 2

/-- The record that a cell refers to is there (layouts). -/
def Origin.hasRecord : Origin → Bool
  | .onPaper (some _) => true
  | _ => false

/-- The content byte of a cell (layouts). -/
def Content.byte : Content → Byte
  | .glyph g => g
  | .space => 0x20
  | .underlinedSpace => 0x00

/-- The six bytes of a cell (layouts). -/
def Cell.bytes (c : Cell) : List Byte :=
  twoBytes c.start ++
  [byteOf c.width, c.content.byte,
   byteOf (bitOf c.bold + 2 * bitOf c.underline + 4 * c.origin.code + 16 * bitOf c.word.isSome +
     32 * bitOf c.origin.hasRecord),
   c.word.getD 0]

/-- READ_LINE (R194). -/
def Engine.opReadLine (piece : Byte) : Operation := fun e =>
  let p := piece.toNat
  let n := e.comp.line.length
  if 24 < p then refuse .malformed e
  else if p = 0 ∨ 8 * p < n then
    let cells := (e.comp.line.drop (8 * p)).take 8
    ([Status.ok.byte, byteOf n, piece, byteOf e.comp.index, byteOf cells.length] ++ (cells.map (·.bytes)).flatten, e)
  else refuse .absent e

/-- The READ_LINE request. -/
def Engine.takeReadLine (piece : Byte) (e : Engine) : Engine :=
  e.answer 0x06 true plainRefusal false (Engine.opReadLine piece)

/-! ## The checker's requests (R136 to R138, R142, R149) -/

/-- RELEASE (R149). -/
def Engine.opRelease : Operation := fun e =>
  if e.seq.stageState = .held then ([Status.ok.byte], { e with seq := { e.seq with stageState := .filling } })
  else refuse .state e

/-- The RELEASE request. -/
def Engine.takeRelease (e : Engine) : Engine := e.answer 0x07 true plainRefusal false (settled Engine.opRelease)

/-- ACCEPT (R138). -/
def Engine.opAccept (word : Byte) : Operation := fun e =>
  match e.spell.entry word with
  | some w =>
    if w.state = .suspect then
      ([Status.ok.byte], { e with spell := e.spell.edit word fun w => { w with state := .accepted } })
    else refuse .absent e
  | none => refuse .absent e

/-- The ACCEPT request. -/
def Engine.takeAccept (word : Byte) (e : Engine) : Engine :=
  e.answer 0x08 true plainRefusal false (settled (Engine.opAccept word))

/-- A word of ADD_WORD or REMOVE_WORD, folded; none when it is malformed (R136). -/
def foldRequest (glyphs : List Byte) : Option (List Nat) :=
  if glyphs.all fun g => (letterCode g).isSome then
    let w := trimApostrophes (glyphs.filterMap letterCode)
    if 2 ≤ w.length ∧ w.length ≤ 24 then some w else none
  else none

/-- Every SUSPECT entry with some letters becomes ACCEPTED (R136). -/
def acceptWord (letters : List Nat) (ws : List WordEntry) : List WordEntry :=
  ws.map fun w => if w.state = .suspect ∧ w.letters = letters then { w with state := .accepted } else w

/-- ADD_WORD (R136). -/
def Engine.opAddWord (glyphs : List Byte) : Operation := fun e =>
  match foldRequest glyphs with
  | none => refuse .malformed e
  | some w =>
    let accepted := acceptWord w e.spell.words
    if w ∈ e.spell.user then ([Status.ok.byte], { e with spell := { e.spell with words := accepted } })
    else if 64 ≤ e.spell.user.length then refuse .full e
    else ([Status.ok.byte], { e with spell := { e.spell with words := accepted, user := e.spell.user ++ [w] } })

/-- The length of a word request (R192). -/
def wordLength (glyphs : List Byte) : Bool := 2 ≤ glyphs.length && glyphs.length ≤ 24

/-- The ADD_WORD request. -/
def Engine.takeAddWord (glyphs : List Byte) (e : Engine) : Engine :=
  e.answer 0x09 (wordLength glyphs) plainRefusal false (settled (Engine.opAddWord glyphs))

/-- REMOVE_WORD (R137). -/
def Engine.opRemoveWord (glyphs : List Byte) : Operation := fun e =>
  match foldRequest glyphs with
  | none => refuse .malformed e
  | some w =>
    if w ∈ e.spell.user then
      ([Status.ok.byte], { e with spell := { e.spell with user := e.spell.user.filter fun u => u ≠ w } })
    else refuse .absent e

/-- The REMOVE_WORD request. -/
def Engine.takeRemoveWord (glyphs : List Byte) (e : Engine) : Engine :=
  e.answer 0x0A (wordLength glyphs) plainRefusal false (Engine.opRemoveWord glyphs)

/-- DICTIONARY (R142). -/
def Engine.opDictionary : Operation := fun e =>
  if e.power.state = .starting ∨ e.spell.dict = .probing then refuse .busy e
  else
    ([Status.ok.byte],
      { e with
        spell := { e.spell with
          dict := .probing, lookups := voidAll e.spell.lookups, words := uncheckPending e.spell.words }
        port := e.port.ask (headerRead .dictHeader) })

/-- The DICTIONARY request. -/
def Engine.takeDictionary (e : Engine) : Engine :=
  e.answer 0x0C true plainRefusal false (settled Engine.opDictionary)

/-! ## DISPLAY_TEXT (R160) -/

/-- DISPLAY_TEXT (R160). -/
def Engine.opDisplayText (seconds : Byte) (codes : List Byte) : Operation := fun e =>
  let n := seconds.toNat
  if e.power.state = .sleep then refuse .state e
  else if 60 < n then refuse .malformed e
  else if n = 0 then
    ([Status.ok.byte], { e with display := { e.display with override := none, overrideTimer := none } })
  else
    ([Status.ok.byte], { e with display := { e.display with override := some codes, overrideTimer := some (n * 1000000) } })

/-- The DISPLAY_TEXT request. -/
def Engine.takeDisplayText (seconds : Byte) (codes : List Byte) (e : Engine) : Engine :=
  e.answer 0x0D (codes.length = 40) plainRefusal false (Engine.opDisplayText seconds codes)

/-! ## The records (R44, R195) -/

/-- Kind, further count and further kinds of a slot (layouts). -/
def slotBytes (s : Option FaultSlot) : List Byte :=
  match s with
  | some f => [byteOf f.kind.code, byteOf f.count] ++ furtherBytes f.kinds
  | none => [0, 0, 0, 0]

/-- The pending entry's code (layouts). -/
def pendingCode : Option Rest → Nat
  | none => 0
  | some .standby => 1
  | some .sleep => 2

/-- The status record (layouts), with a power state and a levels byte given. -/
def Engine.statusBytes (power : PowerState) (levels : Byte) (e : Engine) : List Byte :=
  [Status.ok.byte, power.code, e.seq.state.code, byteOf e.comp.keys.length, byteOf e.seq.queue.length,
    e.seq.stageState.code] ++
  slotBytes e.faults.x ++ slotBytes e.faults.p ++
  [idByte e.wheel.mounted, idByte e.comp.wheel] ++
  twoBytes e.carriage.position ++ twoBytes e.platen.position.toNat ++ twoBytes e.comp.cursor ++
  [e.esc.byte, byteOf e.suspectCount, e.spell.dict.code,
    byteOf (pendingCode e.power.pendingEntry + 128 * bitOf e.power.wake.isSome), levels]

/-- The part is off, or on its way there after the OK reply (R182). -/
def Engine.goingOff (e : Engine) : Bool := e.power.state = .deepOff || e.power.deepOff.isSome

/-- The accrued flags cleared (R44). -/
def Escapement.clear (x : Escapement) : Escapement := { x with accrued := {} }

/-- STATUS (R44, R182, R195). The carriage counter is read where the event finds it (log 3). Off, the record is that of
hard reset values, but for the sensor levels, which nothing watches (log 6). -/
def Engine.opStatus (clear : Bool) : Operation := fun e =>
  if e.goingOff then
    let off := Engine.cold e.pins
    (off.statusBytes .deepOff ((Config.deepOffLevels e.free).setWidth 8), { e with free := e.free + 1 })
  else
    let e := e.readCounter
    (e.statusBytes e.power.state e.levels.byte, if clear then { e with esc := e.esc.clear } else e)

/-- The STATUS request. -/
def Engine.takeStatus (clear : Bool) (e : Engine) : Engine :=
  e.answer 0x0E true plainRefusal true (Engine.opStatus clear)

/-- The wheel id that the identity record reports of a slot (R46). -/
def WheelSlot.reported (s : WheelSlot) : Byte := if s.state = .ready then byteOf s.id else 0

/-- The identity record (layouts). -/
def Engine.identityBytes (e : Engine) : List Byte :=
  [Status.ok.byte, 0x12, 0x0C, Config.siliconRevision, 64, 32] ++ twoBytes 512 ++ [64, 4, 80, e.spell.dict.code] ++
  threeBytes e.spell.wordCount ++ twoBytes e.spell.bucketCount ++ e.slots.map (·.reported) ++
  twoBytes e.port.flashSize.toNat

/-- IDENTIFY (R195). -/
def Engine.opIdentify : Operation := fun e => (e.identityBytes, e)

/-- The IDENTIFY request. -/
def Engine.takeIdentify (e : Engine) : Engine := e.answer 0x0F true plainRefusal false Engine.opIdentify

/-! ## The meanings -/

/-- KEY. -/
def execKey (entries : List KeyBytes) (s : State) : Host.Outcome State Fault Refusal :=
  .next (s.on fun e => (e.takeKeyRequest entries).refresh)

/-- WHEEL_TABLE_PIECE_0. -/
def execWheelTablePiece0 (slot wheel cls space underline : Byte) (s : State) : Host.Outcome State Fault Refusal :=
  .next (s.on fun e => (e.takePiece0 slot wheel cls space underline).refresh)

/-- WHEEL_TABLE_PIECE. -/
def execWheelTablePiece (slot piece : Byte) (entries : List GlyphBytes) (s : State) :
    Host.Outcome State Fault Refusal :=
  .next (s.on fun e => (e.takePieceN slot piece entries).refresh)

/-- WHEEL_CHANGE. -/
def execWheelChange (expected : Byte) (s : State) : Host.Outcome State Fault Refusal :=
  .next (s.on fun e => (e.takeWheelChange expected).refresh)

/-- PAPER_LOAD. -/
def execPaperLoad (s : State) : Host.Outcome State Fault Refusal := .next (s.on fun e => (e.takePaper 0).refresh)

/-- PAPER_EJECT. -/
def execPaperEject (s : State) : Host.Outcome State Fault Refusal := .next (s.on fun e => (e.takePaper 1).refresh)

/-- READ_LINE. -/
def execReadLine (piece : Byte) (s : State) : Host.Outcome State Fault Refusal :=
  .next (s.on fun e => (e.takeReadLine piece).refresh)

/-- RELEASE. -/
def execRelease (s : State) : Host.Outcome State Fault Refusal := .next (s.on fun e => (e.takeRelease).refresh)

/-- ACCEPT. -/
def execAccept (word : Byte) (s : State) : Host.Outcome State Fault Refusal :=
  .next (s.on fun e => (e.takeAccept word).refresh)

/-- ADD_WORD. -/
def execAddWord (glyphs : List Byte) (s : State) : Host.Outcome State Fault Refusal :=
  .next (s.on fun e => (e.takeAddWord glyphs).refresh)

/-- REMOVE_WORD. -/
def execRemoveWord (glyphs : List Byte) (s : State) : Host.Outcome State Fault Refusal :=
  .next (s.on fun e => (e.takeRemoveWord glyphs).refresh)

/-- DICTIONARY. -/
def execDictionary (s : State) : Host.Outcome State Fault Refusal := .next (s.on fun e => (e.takeDictionary).refresh)

/-- DISPLAY_TEXT. -/
def execDisplayText (seconds : Byte) (codes : List Byte) (s : State) : Host.Outcome State Fault Refusal :=
  .next (s.on fun e => (e.takeDisplayText seconds codes).refresh)

/-- STATUS. -/
def execStatus (s : State) : Host.Outcome State Fault Refusal := .next (s.on fun e => (e.takeStatus false).refresh)

/-- STATUS_CLEAR_ACCRUED. -/
def execStatusClearAccrued (s : State) : Host.Outcome State Fault Refusal :=
  .next (s.on fun e => (e.takeStatus true).refresh)

/-- IDENTIFY. -/
def execIdentify (s : State) : Host.Outcome State Fault Refusal := .next (s.on fun e => (e.takeIdentify).refresh)

end Sys2Proof.Machine
end

