-- ==== Sys2Proof/Machine/Context.lean ====
section
/-! DEFINITION. SAVE_CONTEXT and RESTORE_CONTEXT with the byte layouts of the context forms (R174, R175, layouts). -/

set_option Elab.async false

namespace Sys2Proof.Machine

/-! ## Packed positions -/

/-- The lowest `n` bits of a number, most significant first. -/
def bitsOf (n v : Nat) : List Bool := (List.range n).map fun i => v / 2 ^ (n - 1 - i) % 2 = 1

/-- Bits as a number, most significant first. -/
def ofBits (bs : List Bool) : Nat := bs.foldl (fun n b => 2 * n + bitOf b) 0

/-- Bits as bytes, with zero bits padding the end. -/
def packBits : Nat → List Bool → List Byte
  | 0, _ => []
  | n + 1, bs => byteOf (ofBits ((bs.take 8) ++ List.replicate (8 - (bs.take 8).length) false)) :: packBits n (bs.drop 8)

/-- The bytes that t packed tab stops take (layouts). -/
def tabBytes (t : Nat) : Nat := (11 * t + 7) / 8

/-- Tab stops packed in 11 bits each (layouts). -/
def packTabs (tabs : List Nat) : List Byte := packBits (tabBytes tabs.length) (tabs.map (bitsOf 11)).flatten

/-- Tab stops out of their bits. -/
def unpackTabs : Nat → List Bool → List Nat
  | 0, _ => []
  | t + 1, bs => ofBits (bs.take 11) :: unpackTabs t (bs.drop 11)

/-! ## SAVE_CONTEXT (R174) -/

/-- Line spacing in half lines. -/
def halfLines (spacing : Nat) : Nat := spacing / 4

/-- The bytes of an IDLE form after its form byte (layouts). -/
def Engine.contextBytes (e : Engine) : List Byte :=
  let s := e.set
  [byteOf (128 * s.mode.code + 32 * s.align.code + 8 * s.distribute.code + 2 * s.spell.code + bitOf s.bidi),
    byteOf (32 * s.pitch.code + 8 * s.impression + halfLines s.spacing), byteOf s.bellZone, idByte e.comp.wheel] ++
  twoBytes s.left ++ twoBytes s.right ++ twoBytes e.comp.cursor ++ [byteOf s.tabs.length] ++ packTabs s.tabs

/-- The first eight bytes of a slot in a BUSY form (layouts). -/
def slotHead (f : FaultSlot) : List Byte :=
  [byteOf f.kind.code, orderFlagByte f.order f.afterHammer, byteOf f.group, glyphByte f.glyph] ++ targetBytes f.target

/-- The X slot of a BUSY form, 12 bytes (layouts). -/
def xSlotBytes (s : Option FaultSlot) : List Byte :=
  match s with
  | some f => slotHead f ++ [idByte f.required, byteOf f.count] ++ furtherBytes f.kinds
  | none => List.replicate 12 0

/-- The P slot of a BUSY form, 11 bytes (layouts). -/
def pSlotBytes (s : Option FaultSlot) : List Byte :=
  match s with
  | some f => slotHead f ++ [byteOf f.count] ++ furtherBytes f.kinds
  | none => List.replicate 11 0

/-- SAVE_CONTEXT (R174). -/
def Engine.opSave : Operation := fun e =>
  let form :=
    if !e.faults.empty then [2] ++ e.contextBytes ++ xSlotBytes e.faults.x ++ pSlotBytes e.faults.p
    else if !e.comp.composed then [0]
    else [1] ++ e.contextBytes
  (Status.ok.byte :: form, e)

/-- The SAVE_CONTEXT request. -/
def Engine.takeSave (e : Engine) : Engine := e.answer 0x11 true plainRefusal false Engine.opSave

/-! ## RESTORE_CONTEXT (R175) -/

/-- The fields of a well-formed IDLE or BUSY context. -/
structure Context where
  mode : Mode
  align : Align
  distribute : Distribute
  spell : SpellSetting
  bidi : Bool
  pitch : Pitch
  impression : Nat
  spacing : Nat
  bellZone : Nat
  wheel : Nat
  left : Nat
  right : Nat
  cursor : Nat
  tabs : List Nat
deriving DecidableEq, Repr

/-- A form as it arrives: NULL, or an IDLE or BUSY context. -/
inductive Form where
  | null
  | context (busy : Bool) (c : Context)
deriving DecidableEq, Repr

/-- The context that the bytes after the form byte spell; `extra` bytes of fault slots follow it in a BUSY form. -/
def contextOf (extra : Nat) (bytes : List Byte) : Option Context :=
  match bytes with
  | b1 :: b2 :: zone :: wheel :: l1 :: l0 :: r1 :: r0 :: c1 :: c0 :: t :: rest =>
    let m := b1.toNat
    let n := b2.toNat
    if 16 < t.toNat ∨ rest.length ≠ tabBytes t.toNat + extra then none
    else
      match modeOfCode (m / 128), alignOfCode (m / 32 % 4), distributeOfCode (m / 8 % 4), spellOfCode (m / 2 % 4),
          bidiOfCode (m % 2), pitchOfCode (n / 32), spacingOfCode (n % 8) with
      | some mode, some align, some distribute, some spell, some bidi, some pitch, some spacing =>
        some { mode, align, distribute, spell, bidi, pitch, impression := n / 8 % 4, spacing, bellZone := zone.toNat
               wheel := wheel.toNat, left := fromTwo l1 l0, right := fromTwo r1 r0, cursor := fromTwo c1 c0
               tabs := unpackTabs t.toNat (rest.map fun b => bitsOf 8 b.toNat).flatten }
      | _, _, _, _, _, _, _ => none
  | _ => none

/-- A form's content, when it is well formed (R175). -/
def formOf (bytes : List Byte) : Option Form :=
  match bytes with
  | [] => none
  | f :: rest =>
    match f.toNat with
    | 0 => if rest = [] then some .null else none
    | 1 => (contextOf 0 rest).map (.context false)
    | 2 => (contextOf 23 rest).map (.context true)
    | _ => none

/-- The margins of a context (R175). -/
def contextMargins (left right : Nat) : Nat × Nat :=
  let l := min 1599 left
  let r := min 1599 right
  if l + 120 ≤ r then (l, r) else if l + 120 ≤ 1599 then (l, l + 120) else (1479, 1599)

/-- The tab stops of a context: clamped, sorted, without repeats (R175). -/
def contextTabs (tabs : List Nat) : List Nat := (tabs.map (min 1599)).foldl (fun l t => insertTab t l) []

/-- The settings that a NULL context restores (R175). -/
def Settings.nulled (s : Settings) : Settings :=
  { ({} : Settings) with energy := s.energy, standby := s.standby, contrast := s.contrast }

/-- The settings that a context gives (R175). `fixed` says that the composition wheel's slot has a fixed class. -/
def Settings.restored (c : Context) (fixed : Bool) (s : Settings) : Settings :=
  { s with
    mode := c.mode, align := c.align, distribute := c.distribute, spell := c.spell, bidi := c.bidi
    pitch := if c.pitch = .ps ∧ fixed = true then .auto else c.pitch
    impression := clampTo 1 3 c.impression, spacing := c.spacing, bellZone := min 240 c.bellZone
    left := (contextMargins c.left c.right).1, right := (contextMargins c.left c.right).2, tabs := contextTabs c.tabs }

/-- Whether the table of R175 clamps, drops, replaces or ignores a field; of a BUSY context it ignores the fault slots. -/
def Context.changed (c : Context) (busy fixed : Bool) (mounted : Option Nat) : Bool :=
  busy ||
  clampTo 1 3 c.impression ≠ c.impression || 240 < c.bellZone || contextMargins c.left c.right ≠ (c.left, c.right) ||
  (contextTabs c.tabs).length ≠ c.tabs.length || c.tabs.any (fun t => 1599 < t) || (c.pitch = .ps && fixed) ||
  c.wheel ≠ mounted.getD 0 || 1599 < c.cursor

/-- A context taken: the settings, the cursor, the relocate point, and the MOVE (R175). -/
def Engine.restore (c : Context) (e : Engine) : Engine :=
  let x := min 1599 c.cursor
  let e : Engine := { e with
    set := e.set.restored c e.fixedWheel
    comp := { e.comp with relocateH := x, relocateV := e.comp.vTarget } }
  (e.moveCursor x).appendMove x

/-- RESTORE_CONTEXT (R175, R183). -/
def Engine.opRestore (bytes : List Byte) : Operation := fun e =>
  if e.power.state = .starting then refuse .busy e
  else if !(e.comp.keys = [] && e.seq.queue = [] && e.seq.stageState = .empty && e.comp.line = [] && e.faults.empty) then
    refuse .busy e
  else
    match formOf bytes with
    | none => refuse .malformed e
    | some .null =>
      let e : Engine := { e with set := e.set.nulled, comp := { e.comp with composed := false } }
      ([Status.ok.byte], e.wakeIfResting)
    | some (.context busy c) =>
      ([(okOrClamped (c.changed busy e.fixedWheel e.wheel.mounted)).byte], (e.restore c).wakeIfResting)

/-- The RESTORE_CONTEXT request. -/
def Engine.takeRestore (bytes : List Byte) (e : Engine) : Engine :=
  e.answer 0x12 (1 ≤ bytes.length && bytes.length ≤ 57) plainRefusal false (settled (Engine.opRestore bytes))

/-! ## The meanings -/

/-- SAVE_CONTEXT. -/
def execSaveContext (s : State) : Host.Outcome State Fault Refusal := .next (s.on fun e => (e.takeSave).refresh)

/-- RESTORE_CONTEXT. -/
def execRestoreContext (form : List Byte) (s : State) : Host.Outcome State Fault Refusal :=
  .next (s.on fun e => (e.takeRestore form).refresh)

end Sys2Proof.Machine
end

