-- ==== Sys2Proof/Machine/Control.lean ====
section
/-! DEFINITION. The requests that steer the sequencer and the power state: RESUME, FLUSH, PAUSE, CONTINUE, SELF_TEST,
STANDBY, SLEEP, DEEP_OFF, WAKE and RESET (R79, R169 to R173, R176, R181 to R183, R186). -/

set_option Elab.async false

namespace Sys2Proof.Machine

/-! ## RESUME (R169, R170) -/

/-- The order kinds that RESUME's paper test asks about: the X order's and the one named in the P slot (R169). -/
def Engine.pausedKinds (e : Engine) : List OrderName :=
  (e.executing.map (·.kind.name)).toList ++ (e.faults.p.bind (·.order)).toList

/-- The order kinds that RESUME's ribbon and tape tests ask about: the X order's and the P order's (R169). -/
def Engine.pairKinds (e : Engine) : List OrderName :=
  (e.executing.map (·.kind.name)).toList ++ (e.pOrder.map (·.kind.name)).toList

/-- The sensors that refuse a RESUME (R169). -/
def Engine.resumeBlocked (e : Engine) : Bool :=
  !e.levels.closed ||
  (!e.levels.present && (decide (.strike ∈ e.pausedKinds) || decide (.lift ∈ e.pausedKinds))) ||
  (e.levels.ribbonEnd && decide (.strike ∈ e.pairKinds)) ||
  (e.levels.tapeEnd && decide (.lift ∈ e.pairKinds))

/-- A WHEEL_CHANGE order. -/
def Order.isChange (o : Order) : Bool :=
  match o.kind with
  | .wheelChange _ => true
  | _ => false

/-- The head order is the faulted one: it executes, or the P slot alone holds a fault and names it, the order named having
stayed at the head (R55). With an X fault and no executing order it is not (log 83). -/
def Engine.headFaulted (e : Engine) : Bool :=
  e.executing.isSome ||
    (e.faults.x.isNone && e.faults.p.isSome && e.seq.queue.head?.map (·.number) == e.faults.named)

/-- The orders behind the faulted one: the whole queue, where the faulted order has left it (R55, R166). -/
def Engine.behindFault (e : Engine) : List Order := if e.headFaulted then e.seq.queue.drop 1 else e.seq.queue

/-- The required id of RESUME's homing (R55). -/
def Engine.resumeRequired (e : Engine) : Option Nat :=
  let other := if e.behindFault.any (·.isChange) then e.faults.wheelBefore else e.comp.wheel
  match e.faults.x with
  | some x => if x.kind = .wheelMismatch then x.required else other
  | none => other

/-- RESUME homes the wheel: it is UNKNOWN or OFF, or the fault is WHEEL_MISMATCH, and the X order does not home it
itself (R102, R170). -/
def Engine.resumeHomes (e : Engine) : Bool :=
  let mismatch := match e.faults.x with
    | some x => x.holds .wheelMismatch
    | none => false
  !(e.executing.any (·.isChange)) && (mismatch || e.wheel.state = .unknown || e.wheel.state = .off)

/-- An order that RESUME makes QUEUED again (R170). -/
def Order.requeued (o : Order) : Order := { o with state := .queued, held := none, heldWritten := false, phase := .start }

/-- RESUME homes the wheel: at once, or when a pulse already begun and its rest have ended (R71, R170; log 96). -/
def Engine.resumeWheel (required : Option Nat) (e : Engine) : Engine :=
  if e.hammerQuiet then e.homeWheel .resume required
  else { e with wheel := { e.wheel with homing := some ⟨.resume, required, .waiting⟩ } }

/-- A wheel homing runs that RESUME's recovery waits for: one of an earlier RESUME, or one of the order that this RESUME makes
QUEUED again (R170, R172; log 97). -/
def Wheel.resumed (w : Wheel) : Bool :=
  match w.homing with
  | some h => h.use = .resume || h.use = .order || h.use = .change
  | none => false

/-- RESUME taken, as one event (R170). -/
def Engine.resume (e : Engine) : Engine :=
  let homes := e.resumeHomes
  let required := e.resumeRequired
  let r : Recovery :=
    { carriage := e.carriage.state = .lost || (e.carriage.state = .homing && e.carriage.use = .resume)
      wheel := homes || e.wheel.resumed
      lift := e.lift.state = .unknown || (e.lift.state = .moving && e.lift.use = .resume) }
  let e := e.clearFaults.stopWait
  let e : Engine := { e with seq := { e.seq with
    queue := e.seq.queue.map (·.requeued), state := if e.seq.queue = [] then .idle else .running, recovery := r } }
  let e := if homes then e.resumeWheel required else e
  e.proceed

/-- RESUME (R169, R170). During a self-test it is refused STATE (R177), with a P fault held too (log 89). -/
def Engine.opResume : Operation := fun e =>
  if e.power.state = .starting ∨ e.power.softReset.isSome then refuse .busy e
  else if e.faults.empty || e.selfTest.isSome || e.resumeBlocked then refuse .state e
  else ([Status.ok.byte], e.resume)

/-- The RESUME request. -/
def Engine.takeResume (e : Engine) : Engine := e.answer 0x13 true plainRefusal false (settled Engine.opResume)

/-! ## FLUSH (R172, R173) -/

/-- A group after a number of its orders were discarded (R83). -/
def Group.discard (n : Nat) (mark : Group → Group) (g : Group) : Group :=
  if n = 0 then g else mark { g with remaining := g.remaining - n, notExecuted := g.notExecuted + n }

/-- The number of orders of a group among some. -/
def ordersOf (orders : List Order) (group : Nat) : Nat := (orders.filter fun o => o.group = group).length

/-- The order that a FLUSH lets run to its completion: the executing one with its after-hammer mark set, while nothing
is FAULTED (R85, R172). -/
def Engine.flushKeeps (e : Engine) : Option Order :=
  match e.executing with
  | some o => if o.afterHammer && e.faults.empty then some o else none
  | none => none

/-- The composition wheel becomes the mounted wheel, or unset when that is none (R57, R102, R173). -/
def Engine.composeMounted (e : Engine) : Engine := { e with comp := { e.comp with wheel := e.wheel.mounted } }

/-- The composition unit comes back to the paper (R173, steps 1 to 5). Several words are handed edited, and then closed, in
line order (log 94). -/
def Engine.backToPaper (lost : List Order) (keep : Option Order) (e : Engine) : Engine :=
  let numbers := lost.map (·.number)
  let gone := fun (c : Cell) => numbers.any fun n => c.origin = .queued n
  let words := cellWords (e.comp.line.filter gone)
  let e := e.withLine (e.comp.line.filter fun c => !gone c)
  let e := e.editAll words
  let e : Engine :=
    if e.lineOpen then e.closeAll words
    else
      let e := Engine.closeAll words { e with comp := { e.comp with word := none } }
      let e : Engine :=
        if e.platen.position = e.comp.vTarget then e
        else
          let e := e.withLine []
          Engine.rebuild { e with comp := { e.comp with vTarget := e.platen.position } }
      e.moveCursor (match keep with
        | some o => o.endPosition
        | none => e.seq.printPoint)
  e.composeMounted

/-- FLUSH taken in RUN, as one event (R172, R173). DESIGN CHOICE: a feed that a fault left running, of an order that a
RESUME has made QUEUED again since, runs on, and the vertical target is the position that it has reached (log 101). With no
order to discard, an X fault is one written outside an order, and its FLUSH sets the composition wheel (R102, R57). DESIGN
CHOICE: this effect of R102 holds against the opening of R173, which leaves the rest of the composition unit as it was
(log 106). -/
def Engine.flush (e : Engine) : Engine :=
  let faulted := !e.faults.empty
  let outside := e.faults.x.isSome
  let keep := e.flushKeeps
  let lost := (match keep with
    | some _ => e.seq.queue.drop 1
    | none => e.seq.queue) ++ e.seq.stage
  let e := if keep.isNone && e.executing.isSome then e.stopOrder else e
  let e := e.clearFaults
  let e : Engine := { e with
    seq := { e.seq with
      state := if e.seq.queue = [] then .idle else .running, pausePending := false
      queue := keep.toList, stage := [], stageState := .empty
      groups := e.seq.groups.map fun g => g.discard (ordersOf lost g.id) fun g => { g with flushed := true } }
    wheel := { e.wheel with homingSpan := e.wheel.homingSpan && !(faulted && e.wheel.wakeSpan) } }
  let e := e.closeGroups
  let e := if lost ≠ [] then e.backToPaper lost keep else if outside then e.composeMounted else e
  e.proceed

/-- FLUSH (R172). -/
def Engine.opFlush : Operation := fun e =>
  if e.power.state = .starting ∨ e.seq.state = .stopped ∨ e.selfTest.isSome ∨ e.power.wake.isSome then refuse .busy e
  else if e.power.state ≠ .run then ([Status.ok.byte], e)
  else ([Status.ok.byte], e.flush)

/-- The FLUSH request. -/
def Engine.takeFlush (e : Engine) : Engine := e.answer 0x14 true plainRefusal false (settled Engine.opFlush)

/-! ## PAUSE and CONTINUE (R79) -/

/-- The sequencer is PAUSED, and the view timer starts (R77, R79). -/
def Engine.pauseNow (e : Engine) : Engine :=
  { e with seq := { e.seq with state := .paused, viewTimer := viewTime } }

/-- PAUSE (R79), in STANDBY and SLEEP too (R86; log 86). -/
def Engine.opPause : Operation := fun e =>
  match e.seq.state with
  | .stopped => refuse .busy e
  | .faulted => refuse .state e
  | .paused => ([Status.ok.byte], e)
  | .idle => ([Status.ok.byte], e.pauseNow)
  | .running =>
    if e.seq.pausePending then ([Status.ok.byte], e)
    else if e.executing.isSome then ([Status.ok.byte], { e with seq := { e.seq with pausePending := true } })
    else ([Status.ok.byte], e.pauseNow)

/-- The PAUSE request. -/
def Engine.takePause (e : Engine) : Engine := e.answer 0x15 true plainRefusal false (settled Engine.opPause)

/-- CONTINUE (R79). -/
def Engine.opContinue : Operation := fun e =>
  match e.seq.state with
  | .stopped => refuse .busy e
  | .faulted => refuse .state e
  | .paused =>
    ([Status.ok.byte], { e with seq := { e.seq with state := if e.seq.queue = [] then .idle else .running } })
  | .idle => ([Status.ok.byte], e)
  | .running => ([Status.ok.byte], { e with seq := { e.seq with pausePending := false } })

/-- The CONTINUE request. -/
def Engine.takeContinue (e : Engine) : Engine := e.answer 0x16 true plainRefusal false (settled Engine.opContinue)

/-! ## SELF_TEST (R176) -/

/-- The conditions of a self-test (R176). -/
def Engine.mayTest (e : Engine) : Bool :=
  e.power.state = .run && e.selfTest.isNone && e.comp.keys = [] && e.seq.queue = [] && e.seq.stageState = .empty &&
  e.faults.empty && (e.seq.state = .idle || e.seq.state = .paused)

/-- SELF_TEST (R176). Its first step moves the lift to VIEW, for a move of the view timer that still waits too (log 43). -/
def Engine.opSelfTest : Operation := fun e =>
  if e.mayTest then
    let id := e.groupId
    let position := if e.carriage.state = .lost then none else some e.carriage.position
    let e : Engine := { e with
      seq := { e.seq with lastGroup := id, liftToView := false }
      selfTest := some
        { group := id, step := 1, sub := 0, failed := [], position := position, wheel := e.wheel.mounted } }
    ([Status.ok.byte, byteOf id], e.proceed)
  else refuse .busy e

/-- The SELF_TEST request. -/
def Engine.takeSelfTest (e : Engine) : Engine := e.answer 0x10 true plainRefusal false (settled Engine.opSelfTest)

/-! ## STANDBY and SLEEP (R181) -/

/-- STANDBY or SLEEP becomes the pending entry (R181). -/
def Engine.pend (r : Rest) (e : Engine) : Engine := { e with power := { e.power with pendingEntry := some r } }

/-- From STANDBY or SLEEP to the other (R181). -/
def Engine.changeRest (r : Rest) (e : Engine) : Engine :=
  let e : Engine := { e with power := { e.power with state := r.state } }
  let e := e.offer (.power r.state)
  { e with display := match r with
      | .standby => e.display.light
      | .sleep => e.display.darken }

/-- STANDBY or SLEEP (R181). -/
def Engine.opRest (r : Rest) : Operation := fun e =>
  match e.power.state with
  | .starting => refuse .busy e
  | .deepOff => refuse .state e
  | .run => ([Status.ok.byte], if e.restful then e.beginEntry r else e.pend r)
  | .standby =>
    ([Status.ok.byte],
      if e.power.wake.isSome || e.power.softReset.isSome then e.pend r
      else if r = .standby then e else e.changeRest r)
  | .sleep =>
    ([Status.ok.byte],
      if e.power.wake.isSome || e.power.softReset.isSome then e.pend r
      else if r = .sleep then e else e.changeRest r)

/-- The STANDBY request. -/
def Engine.takeStandby (e : Engine) : Engine := e.answer 0x17 true plainRefusal false (settled (Engine.opRest .standby))

/-- The SLEEP request. -/
def Engine.takeSleep (e : Engine) : Engine := e.answer 0x18 true plainRefusal false (settled (Engine.opRest .sleep))

/-! ## DEEP_OFF and WAKE (R182, R183) -/

/-- DEEP_OFF is refused BUSY (R182). -/
def Engine.offBusy (e : Engine) : Bool :=
  e.power.state = .starting || e.power.wake.isSome || e.power.softReset.isSome ||
  !(e.comp.keys = [] && e.seq.queue = [] && e.seq.stageState = .empty && e.faults.empty && e.selfTest.isNone)

/-- The DEEP_OFF request: the OK reply goes out in full before anything else happens (R182). -/
def Engine.takeDeepOff (e : Engine) : Engine :=
  e.checked 0x19 true plainRefusal false fun e =>
    if e.offBusy then e.joinReply 0x59 [Status.busy.byte] false
    else Engine.settle (Engine.joinReply 0x59 [Status.ok.byte] true
      { e with power := { e.power with deepOff := some .replying } })

/-- WAKE, answered OK in every power state (R182, R183). -/
def Engine.takeWake (e : Engine) : Engine :=
  e.checked 0x1A true plainRefusal true fun e =>
    if e.power.state = .deepOff then (e.joinReply 0x5A [Status.ok.byte] false).deepOffWake.settle
    else if e.power.deepOff.isSome then
      Engine.joinReply 0x5A [Status.ok.byte] false { e with power := { e.power with wakeAfterOff := true } }
    else e.reply 0x5A fun e => ([Status.ok.byte], e.wakeIfResting.settle)

/-! ## RESET (R186) -/

/-- A group abandoned by a soft reset: its undrained and queued orders count as not executed (R83, R86). -/
def Group.abort (g : Group) : Group :=
  { g with remaining := 0, notExecuted := g.notExecuted + g.remaining, aborted := true }

/-- The sequencer after step 2 of a soft reset (R86, R186). -/
def Sequencer.abandon (s : Sequencer) : Sequencer :=
  { s with
    state := .stopped, pausePending := false, queue := [], stageState := .empty, stage := [], viewTimer := none
    recovery := {}, liftToView := false, groups := s.groups.map (·.abort) }

/-- Step 2 of a soft reset: work is stopped and the queues are emptied, as one event (R26, R85, R86, R150, R177, R178,
R186). -/
def Engine.abandonWork (e : Engine) : Engine :=
  let test := e.selfTest
  let e := e.deleteAll (cellWords (e.comp.line.filter (·.unreleased)))
  let e : Engine := { e with
    comp := { e.comp with keys := [], wheel := none, word := none, line := e.comp.line.filter fun c => !c.unreleased }
    spell := e.spell.softReset
    seq := e.seq.abandon
    platen := e.platen.halt
    hammer := { e.hammer with waitTimer := none }
    faults := {}
    selfTest := none
    power := { e.power with pendingEntry := none, entering := none, timer := none, wake := none } }
  let e := e.closeGroups
  match test with
  | some t => e.offer (t.notice .aborted)
  | none => e

/-- The display after a soft reset (R163). -/
def Display.softReset (d : Display) : Display :=
  { d with
    lit := true, phaseOn := true, blinkTimer := some 500000, window := 0
    message := .nothing, holdTimer := none, override := none, overrideTimer := none }

/-- Step 4 of a soft reset: a wheel homing that runs is abandoned without a WHEEL notice (DESIGN CHOICE, log 99), the channels
are energised and homed again, and the composition unit takes its values
(R26, R105, R186). `resting` says that the channels were OFF. The wheel channel stays OFF while the cover is open (R93). -/
def Engine.rehome (resting : Bool) (e : Engine) : Engine :=
  let e := if resting then e.energise else e
  let e : Engine := { e with
    display := e.display.softReset
    comp := { e.comp with
      cursor := e.set.left, vTarget := e.platen.position, bellRung := false, marginRelease := false
      relocateH := e.set.left, relocateV := e.platen.position }
    power := { e.power with softReset := some { carriage := .running, wheel := coverPart e.levels.closed } }
    wheel := { e.wheel with
      state := if e.levels.closed then .unknown else .off
      petal := none, timer := none, homing := none, lostByTest := false, recoveryFailed := false } }
  e.rebuild.loseCarriage.advanceRehoming

/-- The RESET request: the notices are discarded, the work is stopped, and the reply follows before the channels are
homed again (R186). -/
def Engine.takeReset (e : Engine) : Engine :=
  e.checked 0x1B true plainRefusal false fun e =>
    if e.power.state = .starting then e.joinReply 0x5B [Status.busy.byte] false
    else
      let resting := e.power.state ≠ .run && e.power.wake.isNone && e.power.softReset.isNone
      let e : Engine := { e with link := { e.link with notices := [] } }
      let e := (e.abandonWork).joinReply 0x5B [Status.ok.byte] false
      (e.rehome resting).settle

/-! ## The meanings -/

/-- SELF_TEST. -/
def execSelfTest (s : State) : Host.Outcome State Fault Refusal := .next (s.on fun e => (e.takeSelfTest).refresh)

/-- RESUME. -/
def execResume (s : State) : Host.Outcome State Fault Refusal := .next (s.on fun e => (e.takeResume).refresh)

/-- FLUSH. -/
def execFlush (s : State) : Host.Outcome State Fault Refusal := .next (s.on fun e => (e.takeFlush).refresh)

/-- PAUSE. -/
def execPause (s : State) : Host.Outcome State Fault Refusal := .next (s.on fun e => (e.takePause).refresh)

/-- CONTINUE. -/
def execContinue (s : State) : Host.Outcome State Fault Refusal := .next (s.on fun e => (e.takeContinue).refresh)

/-- STANDBY. -/
def execStandby (s : State) : Host.Outcome State Fault Refusal := .next (s.on fun e => (e.takeStandby).refresh)

/-- SLEEP. -/
def execSleep (s : State) : Host.Outcome State Fault Refusal := .next (s.on fun e => (e.takeSleep).refresh)

/-- DEEP_OFF. -/
def execDeepOff (s : State) : Host.Outcome State Fault Refusal := .next (s.on fun e => (e.takeDeepOff).refresh)

/-- WAKE. -/
def execWake (s : State) : Host.Outcome State Fault Refusal := .next (s.on fun e => (e.takeWake).refresh)

/-- RESET. -/
def execReset (s : State) : Host.Outcome State Fault Refusal := .next (s.on fun e => (e.takeReset).refresh)

end Sys2Proof.Machine
end

