-- ==== Sys2Proof/Machine/Link.lean ====
section
/-! DEFINITION. The link controller's events: the hard reset, bytes and errors on the incoming line, the receiver's
timers, unknown frames, and the end of a frame on the outgoing line (R185, R187 to R190, R192). -/

set_option Elab.async false

namespace Sys2Proof.Machine

/-! ## A completed frame (R189, R192) -/

/-- The key entries of a KEY payload; none when it is not a whole number of entries. -/
def keyPairs : List Byte → Option (List KeyBytes)
  | [] => some []
  | c :: a :: rest => (keyPairs rest).map fun l => ⟨c, a⟩ :: l
  | [_] => none

/-- The request of a KEY payload (R1, R189). -/
def Engine.keyFrame (payload : List Byte) (e : Engine) : Engine :=
  match keyPairs payload with
  | some entries => e.takeKeyRequest entries
  | none => e.answer 0x01 false keyRefusal false fun e => ([], e)

/-- A frame whose payload length its request does not allow (R189). -/
def Engine.badLength (typ : Byte) (e : Engine) : Engine := e.answer typ false plainRefusal false fun e => ([], e)

/-- The request of a SET payload: 1 to 5 bytes (R193). -/
def Engine.setFrame (payload : List Byte) (e : Engine) : Engine :=
  e.answer 0x02 (1 ≤ payload.length && payload.length ≤ 5) plainRefusal false (statusOnly (·.opSet payload))

/-- The request of a WHEEL_TABLE payload (R49, R192). -/
def Engine.tableFrame (payload : List Byte) (e : Engine) : Engine :=
  match payload with
  | slot :: piece :: rest =>
    if piece = 0 then
      match rest with
      | [wheel, cls, space, under] => e.takePiece0 slot wheel cls space under
      | _ => e.badLength 0x04
    else if rest.length = 24 then e.takePieceN slot piece (glyphEntries rest)
    else e.badLength 0x04
  | _ => e.badLength 0x04

/-- A request without a payload. -/
def Engine.bareFrame (typ : Byte) (payload : List Byte) (take : Engine → Engine) (e : Engine) : Engine :=
  if payload = [] then take e else e.badLength typ

/-- A request with a payload of one byte. -/
def Engine.byteFrame (typ : Byte) (payload : List Byte) (take : Byte → Engine → Engine) (e : Engine) : Engine :=
  match payload with
  | [b] => take b e
  | _ => e.badLength typ

/-- The request of a STATUS payload: none, or one byte whose lowest bit asks for clear accrued (R195). -/
def Engine.statusFrame (payload : List Byte) (e : Engine) : Engine :=
  match payload with
  | [] => e.takeStatus false
  | [b] => e.takeStatus (b.getLsbD 0)
  | _ => e.badLength 0x0E

/-- The request of a DISPLAY_TEXT payload. -/
def Engine.textFrame (payload : List Byte) (e : Engine) : Engine :=
  match payload with
  | seconds :: codes => e.takeDisplayText seconds codes
  | [] => e.badLength 0x0D

/-- The types of the catalogue (R192). -/
def isRequest (typ : Byte) : Bool :=
  let n := typ.toNat
  1 ≤ n && n ≤ 0x1C && n ≠ 0x03 && n ≠ 0x0B

/-- The reply's type to a frame whose type names no request (R189). -/
def unknownReply (typ : Byte) : Byte := if 1 ≤ typ.toNat ∧ typ.toNat ≤ 0x3F then typ + 0x40 else 0x40

/-- A frame whose type names no request is answered UNKNOWN (R189). -/
def Engine.unknown (typ : Byte) (e : Engine) : Engine :=
  e.checked typ true plainRefusal true fun e => e.joinReply (unknownReply typ) [Status.unknown.byte] false

/-- A completed frame is handed to the block that owns its request (R189, R192). -/
def Engine.takeFrame (f : Frame) (e : Engine) : Engine :=
  let p := f.payload
  match f.typ.toNat with
  | 0x01 => e.keyFrame p
  | 0x02 => e.setFrame p
  | 0x04 => e.tableFrame p
  | 0x05 => e.byteFrame 0x05 p (fun b e => e.takeWheelChange b)
  | 0x06 => e.byteFrame 0x06 p (fun b e => e.takeReadLine b)
  | 0x07 => e.bareFrame 0x07 p (·.takeRelease)
  | 0x08 => e.byteFrame 0x08 p (fun b e => e.takeAccept b)
  | 0x09 => e.takeAddWord p
  | 0x0A => e.takeRemoveWord p
  | 0x0C => e.bareFrame 0x0C p (·.takeDictionary)
  | 0x0D => e.textFrame p
  | 0x0E => e.statusFrame p
  | 0x0F => e.bareFrame 0x0F p (·.takeIdentify)
  | 0x10 => e.bareFrame 0x10 p (·.takeSelfTest)
  | 0x11 => e.bareFrame 0x11 p (·.takeSave)
  | 0x12 => e.takeRestore p
  | 0x13 => e.bareFrame 0x13 p (·.takeResume)
  | 0x14 => e.bareFrame 0x14 p (·.takeFlush)
  | 0x15 => e.bareFrame 0x15 p (·.takePause)
  | 0x16 => e.bareFrame 0x16 p (·.takeContinue)
  | 0x17 => e.bareFrame 0x17 p (·.takeStandby)
  | 0x18 => e.bareFrame 0x18 p (·.takeSleep)
  | 0x19 => e.bareFrame 0x19 p (·.takeDeepOff)
  | 0x1A => e.bareFrame 0x1A p (·.takeWake)
  | 0x1B => e.bareFrame 0x1B p (·.takeReset)
  | 0x1C => e.byteFrame 0x1C p (fun b e => e.takePaper b)
  | _ => e.unknown f.typ

/-! ## The receiver (R187, R188) -/

/-- The receiver after a state change. -/
def Engine.withReceiver (r : Receiver) (e : Engine) : Engine := { e with link := { e.link with rx := r } }

/-- The receiver's gap time (R188). -/
def gapTime : Timer := some 3000

/-- A byte received without an error (R187, R188). -/
def Engine.receive (b : Byte) (e : Engine) : Engine :=
  let r := e.link.rx
  match r.state with
  | .idle => e.withReceiver { state := .typeTaken, typ := b, length := 0, bytes := [], gapTimer := gapTime }
  | .typeTaken =>
    if 64 < b.toNat then (e.withReceiver { state := .hunt }).offer (.link .length)
    else if b = 0 then (e.withReceiver {}).takeFrame ⟨r.typ, []⟩
    else e.withReceiver { r with state := .payload, length := b.toNat, gapTimer := gapTime }
  | .payload =>
    let bytes := r.bytes ++ [b]
    if bytes.length = r.length then (e.withReceiver {}).takeFrame ⟨r.typ, bytes⟩
    else e.withReceiver { r with bytes := bytes, gapTimer := gapTime }
  | .hunt => e

/-- A byte with a parity or framing error (R187). -/
def Engine.receiveError (e : Engine) : Engine :=
  match e.link.rx.state with
  | .hunt => e
  | .idle => (e.withReceiver { state := .hunt }).offer (.link .byteError)
  | .typeTaken => (e.withReceiver { state := .hunt }).offer (.link .byteError)
  | .payload => (e.withReceiver { state := .hunt }).offer (.link .byteError)

/-- The incoming line has been idle for 10 bit times (R187). -/
def Engine.lineIdle (e : Engine) : Engine := if e.link.rx.state = .hunt then e.withReceiver {} else e

/-- The gap timer expires (R188). -/
def Engine.gapExpires (e : Engine) : Engine :=
  if e.link.rx.gapTimer.isSome then (e.withReceiver {}).offer (.link .timeout) else e

/-! ## The transmitter (R190) -/

/-- The end of the frame on the line: the next one starts, and the OK reply of DEEP_OFF lets the part go off
(R182, R190). The next frame begins first, so that a waiting notice at that boundary goes out (log 91). -/
def Engine.frameEnds (e : Engine) : Engine :=
  match e.link.tx with
  | none => e
  | some f =>
    let e : Engine := { e with link := Link.pump { e.link with tx := none } }
    if f.closing then e.replyGone.settle else e

/-! ## The meanings -/

/-- HARD_RESET: every block takes its hard reset values, and start-up begins (R185). The pins stand as they are. -/
def execHardReset (s : State) : Host.Outcome State Fault Refusal :=
  .next (s.on fun e => (Engine.startUp {} e.pins e.free).settle.refresh)

/-- RECEIVE_BYTE. -/
def execReceiveByte (b : Byte) (s : State) : Host.Outcome State Fault Refusal :=
  .next (s.on fun e => (e.receive b).refresh)

/-- BYTE_ERROR. -/
def execByteError (s : State) : Host.Outcome State Fault Refusal := .next (s.on fun e => e.receiveError.refresh)

/-- HUNT_IDLE_TIMEOUT. -/
def execHuntIdleTimeout (s : State) : Host.Outcome State Fault Refusal := .next (s.on fun e => e.lineIdle.refresh)

/-- GAP_TIMER_EXPIRY. -/
def execGapTimerExpiry (s : State) : Host.Outcome State Fault Refusal := .next (s.on fun e => e.gapExpires.refresh)

/-- UNKNOWN_FRAME: a type that the catalogue names makes no unknown frame, and changes nothing (log 11). -/
def execUnknownFrame (typ : Byte) (s : State) : Host.Outcome State Fault Refusal :=
  .next (s.on fun e => (if isRequest typ then e else e.unknown typ).refresh)

/-- TRANSMIT_FRAME_END. -/
def execTransmitFrameEnd (s : State) : Host.Outcome State Fault Refusal := .next (s.on fun e => e.frameEnds.refresh)

end Sys2Proof.Machine
end

