-- ==== Sys2Proof/Machine/Compose.lean ====
section
/-! DEFINITION. The meanings of the keys that the composition unit takes from the head of the key queue (R3, R6 to R21,
R114 to R117). A head key that R3 does not let through, or of another kind, stays where it is (log 12). -/

set_option Elab.async false

namespace Sys2Proof.Machine

/-- What follows the composition of a key: the queues settle, and the display follows. -/
def afterKey (take : Engine → Engine) (e : Engine) : Engine := (take e).settle.refresh

/-- PRINTABLE_KEY (R6, R18, R21). -/
def execPrintableKey (s : State) : Host.Outcome State Fault Refusal := .next (s.on (afterKey (·.takePrintable)))

/-- SPACE (R9, R18, R21). -/
def execSpace (s : State) : Host.Outcome State Fault Refusal := .next (s.on (afterKey (·.takeSpace)))

/-- RETURN (R13, R20). -/
def execReturn (s : State) : Host.Outcome State Fault Refusal := .next (s.on (afterKey (·.takeReturn 0x01 false)))

/-- PARAGRAPH_RETURN (R13, R20). -/
def execParagraphReturn (s : State) : Host.Outcome State Fault Refusal :=
  .next (s.on (afterKey (·.takeReturn 0x02 true)))

/-- BACKSPACE (R12, R19). -/
def execBackspace (s : State) : Host.Outcome State Fault Refusal := .next (s.on (afterKey (·.takeBackspace)))

/-- TAB (R11, R19). -/
def execTab (s : State) : Host.Outcome State Fault Refusal := .next (s.on (afterKey (·.takeTab)))

/-- MARGIN_RELEASE (R8). -/
def execMarginRelease (s : State) : Host.Outcome State Fault Refusal := .next (s.on (afterKey (·.takeMarginRelease)))

/-- INDEX: a FEED of the line spacing (R14). -/
def execIndex (s : State) : Host.Outcome State Fault Refusal :=
  .next (s.on (afterKey (·.takeVertical 0x06 fun set => set.spacing)))

/-- REVERSE_INDEX: a FEED of minus the line spacing (R14). -/
def execReverseIndex (s : State) : Host.Outcome State Fault Refusal :=
  .next (s.on (afterKey (·.takeVertical 0x07 fun set => -set.spacing)))

/-- HALF_UP: a FEED of −4 steps (R14). -/
def execHalfUp (s : State) : Host.Outcome State Fault Refusal :=
  .next (s.on (afterKey (·.takeVertical 0x08 fun _ => -4)))

/-- HALF_DOWN: a FEED of +4 steps (R14). -/
def execHalfDown (s : State) : Host.Outcome State Fault Refusal :=
  .next (s.on (afterKey (·.takeVertical 0x09 fun _ => 4)))

/-- CORRECT (R19, R115). -/
def execCorrect (s : State) : Host.Outcome State Fault Refusal :=
  .next (s.on (afterKey (·.takeCorrection 0x0A (·.removeLast) (·.correctOne))))

/-- CORRECT_WORD (R19, R116). -/
def execCorrectWord (s : State) : Host.Outcome State Fault Refusal :=
  .next (s.on (afterKey (·.takeCorrection 0x0B (·.cutLastWord) (·.correctWord))))

/-- CORRECT_LINE (R19, R117). -/
def execCorrectLine (s : State) : Host.Outcome State Fault Refusal :=
  .next (s.on (afterKey (·.takeCorrection 0x0C (·.cutOpenLine) (·.correctLine))))

/-- RELOCATE (R16, R19). -/
def execRelocate (s : State) : Host.Outcome State Fault Refusal := .next (s.on (afterKey (·.takeRelocate)))

end Sys2Proof.Machine
end

