-- ==== Sys2Proof/Machine/Motion.lean ====
section
/-! DEFINITION. The events of the sequencer and the motion channels (R61, R70, R87 to R97). An event whose
precondition does not hold changes nothing but the pins it reads (log 11). -/

set_option Elab.async false

namespace Sys2Proof.Machine

/-- What follows an event of the mechanism: whatever waits for a channel goes on, the queues settle, and the display
follows. In DEEP_OFF nothing but a pin changes. -/
def Engine.after (e : Engine) : Engine :=
  if e.power.state = .deepOff then e.refresh else e.proceed.settle.refresh

/-- ORDER_START (R70). -/
def execOrderStart (s : State) : Host.Outcome State Fault Refusal := .next (s.on fun e => e.startHead.after)

/-! ## The carriage -/

/-- The counter reaches the target (R87). -/
def Engine.carriageReaches (e : Engine) : Engine :=
  if e.carriage.state = .moving then
    Engine.carriageArrives
      { e with carriage := { e.carriage with state := .idle, position := e.carriage.target, timer := none } }
  else e

/-- CARRIAGE_MOVE_END (R87). -/
def execCarriageMoveEnd (s : State) : Host.Outcome State Fault Refusal :=
  .next (s.on fun e => e.carriageReaches.after)

/-- An encoder edge restarts the motion timer of a carriage under way, and changes no counter (R87, R88). -/
def Engine.carriageEdge (e : Engine) : Engine :=
  if e.carriage.busy then { e with carriage := { e.carriage with timer := some 6000 } } else e

/-- CARRIAGE_ENCODER_EDGE (R88). -/
def execCarriageEncoderEdge (s : State) : Host.Outcome State Fault Refusal :=
  .next (s.on fun e => e.carriageEdge.refresh)

/-- The motion timer of a carriage under way expires (R88, R89). -/
def Engine.carriageStalls (e : Engine) : Engine := if e.carriage.busy then e.carriageFails else e

/-- CARRIAGE_MOTION_TIMER_EXPIRY (R88). -/
def execCarriageMotionTimerExpiry (s : State) : Host.Outcome State Fault Refusal :=
  .next (s.on fun e => e.carriageStalls.after)

/-- The home flag changes (R89): inactive, it ends the part to the right; active, it ends the search. -/
def Engine.flagChanges (active : Bool) (e : Engine) : Engine :=
  let e : Engine := { e with pins := { e.pins with home := active } }
  if e.carriage.state ≠ .homing then e
  else if e.carriage.rightwards then
    if active then e
    else
      let e := e.readCounter
      { e with carriage := { e.carriage with rightwards := false } }
  else if active then e.carriageHomed
  else e

/-- HOME_FLAG_CHANGE (R89). -/
def execHomeFlagChange (active : Bool) (s : State) : Host.Outcome State Fault Refusal :=
  .next (s.on fun e => (e.flagChanges active).after)

/-- The flag is still active after 48 steps right: the counter has followed them (R87, R89; log 3). -/
def Engine.flagLimit (e : Engine) : Engine :=
  if e.carriage.state = .homing ∧ e.carriage.rightwards = true then
    Engine.carriageFails
      { e with carriage := { e.carriage with position := min 1599 (e.carriage.start + 48), rightwards := false } }
  else e

/-- HOME_STEP_LIMIT (R89). -/
def execHomeStepLimit (s : State) : Host.Outcome State Fault Refusal := .next (s.on fun e => e.flagLimit.after)

/-! ## The wheel -/

/-- The rotor is at rest on its target: a rotation is over, or a homing's PARK (R90, R91). -/
def Engine.wheelRests (e : Engine) : Engine :=
  match e.wheel.state with
  | .rotating =>
    { e with wheel := { e.wheel with state := .settled, petal := some e.wheel.target, timer := none } }
  | .homing =>
    match e.wheel.homing with
    | some h =>
      match h.phase with
      | .park code => e.homingEnds h code
      | .waiting => e
      | .search => e
      | .read _ _ => e
    | none => e
  | .unknown => e
  | .settled => e
  | .off => e

/-- WHEEL_SETTLED (R90). -/
def execWheelSettled (s : State) : Host.Outcome State Fault Refusal := .next (s.on fun e => e.wheelRests.after)

/-- The rotation timer expires (R90, R91). -/
def Engine.wheelStalls (e : Engine) : Engine :=
  match e.wheel.state with
  | .rotating =>
    Engine.channelFault .wheelStall
      { e with wheel := { e.wheel with state := .unknown, petal := none, timer := none } }
  | .homing =>
    match e.wheel.homing with
    | some h =>
      match h.phase with
      | .park _ => e.homingFails h .wheelStall
      | .waiting => e
      | .search => e
      | .read _ _ => e
    | none => e
  | .unknown => e
  | .settled => e
  | .off => e

/-- WHEEL_ROTATION_TIMER_EXPIRY (R90). -/
def execWheelRotationTimerExpiry (s : State) : Host.Outcome State Fault Refusal :=
  .next (s.on fun e => e.wheelStalls.after)

/-- The homing that runs. -/
def Engine.homing (e : Engine) : Option Homing := if e.wheel.state = .homing then e.wheel.homing else none

/-- A homing goes on in another phase. -/
def Engine.homingPhase (h : Homing) (p : HomingPhase) (e : Engine) : Engine :=
  { e with wheel := { e.wheel with homing := some { h with phase := p } } }

/-- The index mark passes, with the time it took (R91). -/
def Engine.indexPasses (width : Nat) (e : Engine) : Engine :=
  match e.homing with
  | none => e
  | some h =>
    match h.phase with
    | .search => e.homingPhase h (.read width [])
    | .read _ _ => e.homingFails h .wheelHomeFail
    | .park _ => e
    | .waiting => e

/-- INDEX_MARK (R91). -/
def execIndexMark (width : Nat) (s : State) : Host.Outcome State Fault Refusal :=
  .next (s.on fun e => (e.indexPasses width).after)

/-- No index mark within 2 revolutions (R91). -/
def Engine.searchEnds (e : Engine) : Engine :=
  match e.homing with
  | none => e
  | some h => if h.phase = .search then e.homingFails h .wheelHomeFail else e

/-- WHEEL_SEARCH_LIMIT (R91). -/
def execWheelSearchLimit (s : State) : Host.Outcome State Fault Refusal := .next (s.on fun e => e.searchEnds.after)

/-- A mark whose width is 1.5 times the index mark's or more reads 1 (R92). -/
def wideMark (index width : Nat) : Bool := 3 * index ≤ 2 * width

/-- The rotation to petal 0 that ends a homing; the homing span is over, since a code is read (R91, R93). The petal that
stands before the hammer is not known yet, and the direction stays the search's (R90; log 74). -/
def Engine.park (h : Homing) (code : Nat) (e : Engine) : Engine :=
  let e : Engine := { e with wheel := { e.wheel with target := 0, timer := some 40000, homingSpan := false, wakeSpan := false } }
  e.homingPhase h (.park code)

/-- A code mark passes (R91, R92). The eighth completes the code; 0 and 255 end the homing at once. -/
def Engine.markPasses (width : Nat) (e : Engine) : Engine :=
  match e.homing with
  | none => e
  | some h =>
    match h.phase with
    | .read index bits =>
      let bits := bits ++ [wideMark index width]
      if bits.length < 8 then e.homingPhase h (.read index bits)
      else
        let code := ofBits bits
        if code = 0 ∨ code = 255 then e.homingFails h .wheelHomeFail else e.park h code
    | .search => e
    | .park _ => e
    | .waiting => e

/-- CODE_MARK (R92). -/
def execCodeMark (width : Nat) (s : State) : Host.Outcome State Fault Refusal :=
  .next (s.on fun e => (e.markPasses width).after)

/-- RECOVERY_HOMING_START (R61). -/
def execRecoveryHomingStart (s : State) : Host.Outcome State Fault Refusal :=
  .next (s.on fun e => (if e.needsRecovery && !e.wheel.recoveryFailed then e.startRecovery else e).after)

/-! ## The platen -/

/-- Four platen steps, in a direction. -/
def fourSteps (forward : Bool) : VPos := if forward then 4 else -4

/-- An edge of a feed (R94). -/
def Platen.edge (p : Platen) : Platen :=
  let q : Platen := { p with position := p.position + fourSteps p.forward }
  if p.remaining ≤ 4 then { q with state := .idle, remaining := 0, timer := none }
  else { q with remaining := p.remaining - 4, timer := some 20000 }

/-- A platen encoder edge (R94, R95). -/
def Engine.platenEdge (forward : Bool) (e : Engine) : Engine :=
  match e.platen.state with
  | .feeding => { e with platen := e.platen.edge }
  | .idle =>
    Engine.knob (fourSteps forward)
      { e with platen := { e.platen with position := e.platen.position + fourSteps forward } }
  | .off =>
    { e with platen := { e.platen with
        knobCount := e.platen.knobCount + (if forward then 1 else -1), knobSeen := true } }

/-- PLATEN_ENCODER_EDGE (R94). In DEEP_OFF the knob is not watched (R182). -/
def execPlatenEncoderEdge (forward : Bool) (s : State) : Host.Outcome State Fault Refusal :=
  .next (s.on fun e => if e.power.state = .deepOff then e.refresh else (e.platenEdge forward).after)

/-- The platen timer expires during a feed (R94). -/
def Engine.platenStalls (e : Engine) : Engine :=
  if e.platen.state = .feeding then Engine.channelFault .platenStall { e with platen := e.platen.halt } else e

/-- PLATEN_MOTION_TIMER_EXPIRY (R94). -/
def execPlatenMotionTimerExpiry (s : State) : Host.Outcome State Fault Refusal :=
  .next (s.on fun e => e.platenStalls.after)

/-! ## The lift -/

/-- The lift after a new reading (R96). -/
def Lift.read (reading : Option LiftTarget) (l : Lift) : Lift :=
  match l.state with
  | .moving =>
    let leg := if l.viaView then .view else l.target
    if reading = some leg then
      if l.viaView then { l with viaView := false, timer := some 30000 }
      else { l with state := .held leg, timer := none }
    else l
  | .held _ => { l with state := heldLift reading }
  | .unknown => { l with state := heldLift reading }

/-- The lift switches change (R96). -/
def Engine.liftReads (lsw1Closed lsw0Closed : Bool) (e : Engine) : Engine :=
  let pins : Pins := { e.pins with lsw1Closed := lsw1Closed, lsw0Closed := lsw0Closed }
  if e.power.state = .deepOff then { e with pins := pins }
  else { e with pins := pins, lift := e.lift.read pins.lift }

/-- LIFT_SWITCH_CHANGE (R96). -/
def execLiftSwitchChange (lsw1Closed lsw0Closed : Bool) (s : State) : Host.Outcome State Fault Refusal :=
  .next (s.on fun e => (e.liftReads lsw1Closed lsw0Closed).after)

/-- The lift timer expires (R96). -/
def Engine.liftStalls (e : Engine) : Engine := if e.lift.state = .moving then e.liftFails else e

/-- LIFT_TIMER_EXPIRY (R96). -/
def execLiftTimerExpiry (s : State) : Host.Outcome State Fault Refusal := .next (s.on fun e => e.liftStalls.after)

/-! ## The hammer -/

/-- The on-time ends, and the rest begins (R97). -/
def Engine.pulseEnds (e : Engine) : Engine :=
  if e.hammer.state = .on then { e with hammer := { e.hammer with state := .rest, pulse := some 3000 } } else e

/-- ON_TIME_END (R97). -/
def execOnTimeEnd (s : State) : Host.Outcome State Fault Refusal := .next (s.on fun e => e.pulseEnds.after)

/-- HAMMER_STUCK of the executing order; outside an order it is no fault (R76, R97, R105). -/
def Engine.hammerFails (e : Engine) : Engine :=
  match e.executing with
  | some o => e.orderFault .hammerStuck o none
  | none => e

/-- The rest ends, with hammer-home seen or not (R97). -/
def Engine.restEnds (e : Engine) : Engine :=
  if e.hammer.state = .rest then
    let e : Engine := { e with hammer := { state := restedHammer e.pins.hammerHome } }
    if e.pins.hammerHome then e else e.hammerFails
  else e

/-- REST_END (R97). -/
def execRestEnd (s : State) : Host.Outcome State Fault Refusal := .next (s.on fun e => e.restEnds.after)

/-- Hammer-home is seen: a STUCK driver is READY (R97). -/
def Engine.hammerReturns (e : Engine) : Engine :=
  let e : Engine := { e with pins := { e.pins with hammerHome := true } }
  if e.hammer.state = .stuck then { e with hammer := { state := .ready } } else e

/-- HAMMER_HOME (R97). -/
def execHammerHome (s : State) : Host.Outcome State Fault Refusal := .next (s.on fun e => e.hammerReturns.after)

/-- The wait of a fire commanded in STUCK ends (R97). -/
def Engine.waitEnds (e : Engine) : Engine :=
  if e.hammer.state = .stuck ∧ e.hammer.waitTimer.isSome = true then
    Engine.hammerFails { e with hammer := { e.hammer with waitTimer := none } }
  else e

/-- STUCK_TIMER_EXPIRY (R97). -/
def execStuckTimerExpiry (s : State) : Host.Outcome State Fault Refusal := .next (s.on fun e => e.waitEnds.after)

end Sys2Proof.Machine
end

