-- ==== Sys2Proof/Machine/Sensors.lean ====
section
/-! DEFINITION. The events of the sensors, the flash and the timers (R48, R77, R93, R99 to R101, R140 to R146, R154,
R158, R160, R180, R181, R184 to R186). -/

set_option Elab.async false

namespace Sys2Proof.Machine

/-! ## Sensors (R99 to R101) -/

/-- The level of a plain sensor. -/
def Levels.level (s : PlainSensor) (l : Levels) : Bool :=
  match s with
  | .paper => l.present
  | .ribbon => l.ribbonEnd
  | .tape => l.tapeEnd

/-- The levels with one plain sensor changed. -/
def Levels.change (s : PlainSensor) (v : Bool) (l : Levels) : Levels :=
  match s with
  | .paper => { l with present := v }
  | .ribbon => { l with ribbonEnd := v }
  | .tape => { l with tapeEnd := v }

/-- The name of a plain sensor in a SENSOR notice. -/
def plainName : PlainSensor → Sensor
  | .paper => .paper
  | .ribbon => .ribbon
  | .tape => .tape

/-- The pins' sensor levels changed. -/
def Engine.pinLevels (f : Levels → Levels) (e : Engine) : Engine :=
  { e with pins := { e.pins with sensors := f e.pins.sensors } }

/-- What a change of level does, with its SENSOR notice ahead of the other notices of the event (R99). -/
def Engine.sensorEarly (n : Notice) (k : Engine → Engine) (e : Engine) : Engine := (k (e.offer n)).after

/-- What a change of level does, with its SENSOR notice behind the other notices of the event (R99). -/
def Engine.sensorLate (n : Notice) (k : Engine → Engine) (e : Engine) : Engine := (k e).after.offer n

/-- The link after several notices of one event have been offered in order (R191). -/
def Link.takes (ns : List Notice) (l : Link) : Link :=
  ns.foldl (fun l n => Link.pump { l with notices := takeNotice n l.notices }) l

/-- What a change of level does without its SENSOR notice, its other notices alone in the notice queue behind a busy
line. -/
def Engine.sensorRest (k : Engine → Engine) (e : Engine) : Engine :=
  (k { e with link := { e.link with tx := some busyLine, notices := [] } }).after

/-- What a change of level does, with its SENSOR notice behind the first `place` of the event's other notices. -/
def Engine.sensorAmong (place : Nat) (n : Notice) (k : Engine → Engine) (e : Engine) : Engine :=
  let rest := e.sensorRest k
  { rest with link := e.link.takes (rest.link.notices.take place ++ n :: rest.link.notices.drop place) }

/-- Whether the event's other notices all fit an empty queue and the part stays on, so that each place among them can
be told. -/
def Engine.sensorPlaces (place : Nat) (k : Engine → Engine) (e : Engine) : Bool :=
  let rest := e.sensorRest k
  place < rest.link.notices.length && rest.link.notices.length < 15 && rest.power.state != .deepOff

/-- A change of level: the new levels, one SENSOR notice, and what the change leads to (R99). No rule orders the
SENSOR notice among the notices of the event (R191): where the order shows, `Config.sensorPlace` chooses (log 17). -/
def Engine.senses (name : Sensor) (f : Levels → Levels) (k : Engine → Engine) (e : Engine) : Engine :=
  let e : Engine := { e with levels := f e.levels }
  let n : Notice := .sensor (some name) e.levels
  let early := e.sensorEarly n k
  let late := e.sensorLate n k
  let place := Config.sensorPlace e.free
  if early.link = late.link then early
  else if place = 0 then { early with free := early.free + 1 }
  else if e.sensorPlaces place k then { e.sensorAmong place n k with free := late.free + 1 }
  else { late with free := late.free + 1 }

/-- A sensor event: in DEEP_OFF only the pin changes, and a level that is held already is no change (R99). -/
def Engine.sensorEvent (name : Sensor) (f : Levels → Levels) (k : Engine → Engine) (e : Engine) : Engine :=
  let e := e.pinLevels f
  if e.power.state = .deepOff ∨ f e.levels = e.levels then e.after else e.senses name f k

/-- SENSOR_CHANGE (R99). -/
def execSensorChange (sensor : PlainSensor) (level : Bool) (s : State) : Host.Outcome State Fault Refusal :=
  .next (s.on (·.sensorEvent (plainName sensor) (·.change sensor level) id))

/-- RELEASE_LEVER_CHANGE: the correction memory is emptied (R101). -/
def execReleaseLeverChange (engaged : Bool) (s : State) : Host.Outcome State Fault Refusal :=
  .next (s.on (·.sensorEvent .lever (fun l => { l with engaged := engaged }) (·.emptyMemory)))

/-! ## The cover opens (R93, R100) -/

/-- A motion or a hammer pulse is under way (R168). -/
def Engine.underWay (e : Engine) : Bool :=
  e.carriage.busy || e.wheel.state = .rotating || e.wheel.state = .homing || e.platen.state = .feeding ||
  e.lift.state = .moving || e.hammer.state = .on

/-- The homing that waits for the cover again, with the required id that it has (log 103); those of an order, a RESUME and the
self-test have failed (R59, R93, R100, R171, R177). -/
def Homing.interrupted (h : Homing) : Option Homing :=
  match h.use with
  | .change => none
  | .order => none
  | .resume => none
  | .selfTest => none
  | .startUp => some { h with phase := .waiting }
  | .softReset => some { h with phase := .waiting }
  | .wake => some { h with phase := .waiting }
  | .recovery => some { h with phase := .waiting }
  | .cover => some { h with phase := .waiting }

/-- The wheel channel at the cover-open event (R93). -/
def Wheel.uncovered (w : Wheel) : Wheel :=
  { w with
    state := .off, petal := none, mounted := none, before := w.mounted, timer := none, homingSpan := true
    wakeSpan := false, homing := w.homing.bind (·.interrupted) }

/-- The WHEEL notice of a homing that the cover-open event ends FAILED (R56, R91, R93), with no id (log 93). The self-test
raises its own. -/
def Wheel.interruptedNotice (w : Wheel) : Option Notice :=
  w.homing.bind fun h =>
    if h.interrupted.isNone ∧ h.use ≠ .selfTest then some (.wheel h.use.cause .failed none h.required) else none

/-- The channels as the cover-open event leaves them (R93, R100). -/
def Engine.stopChannels (e : Engine) : Engine :=
  let failed := e.wheel.interruptedNotice
  let e := e.stopCarriage
  let e := Engine.stopLift { e with wheel := e.wheel.uncovered, platen := e.platen.halt }
  e.offerAll failed.toList

/-- A part that a cover-open event stopped starts again at the cover-closed event (R184 to R186). -/
def Part.stopped (p : Part) : Part := if p = .running then .waiting else p

/-- The parts of a wake and of a soft reset that the cover-open event stops (R184, R186). `moving` says that the
carriage was under way. -/
def Engine.stopParts (moving : Bool) (e : Engine) : Engine :=
  let e := e.editWake fun w =>
    { w with carriage := if moving then w.carriage.stopped else w.carriage, wheel := w.wheel.stopped }
  e.editRehoming fun r =>
    { r with carriage := if moving then r.carriage.stopped else r.carriage, wheel := r.wheel.stopped }

/-- The step of the self-test that a cover-open event stops fails with its code (R177). `carriage`, `wheel` and `lift` say
that a motion of the test's own was under way there: another that the step waits for belongs to no step. -/
def Engine.testUncovered (carriage wheel lift : Bool) (e : Engine) : Engine :=
  match e.selfTest with
  | none => e
  | some t =>
    if t.step = 2 ∧ carriage = true then e.editTest fun t => (t.fail 2).next
    else if t.step = 3 ∧ t.sub = 1 ∧ wheel = true then e.testWheelFailed .failed none t.wheel
    else if (t.step = 1 ∨ t.step = 5) ∧ lift = true then e.editTest fun t => (t.fail t.step).next
    else e

/-- A RESUME's recovery that the cover stops during a self-test is over, as a result of the test (R102, R177; log 75). -/
def Engine.recoveryUncovered (e : Engine) : Engine :=
  let r := e.seq.recovery
  let suffers := fun (part : Bool) (kind : FaultKind) (e : Engine) => if part then e.editTest (·.suffer kind) else e
  let e : Engine := { e with seq := { e.seq with recovery := {} } }
  suffers r.lift .liftStall (suffers r.wheel .wheelHomeFail (suffers r.carriage .carriageStall e))

/-- The fault of a cover-open event (R59, R76, R100, R168, R171). During a self-test it writes none, with a P fault held
too (R177; log 77). -/
def Engine.coverFault (moving : Bool) (e : Engine) : Engine :=
  if e.selfTest.isSome then e.recoveryUncovered
  else
  match e.executing with
  | some o =>
    if o.phase = .awaitOpen ∧ o.isChange = true then e.setPhase o .awaitClose
    else if e.faults.empty then e.orderFault .coverOpen o none
    else if moving then e.looseFault .coverOpen none
    else e
  | none =>
    if !e.seq.recovery.over then
      Engine.headFault .coverOpen none { e with seq := { e.seq with recovery := {} } }
    else if !e.faults.empty && moving && e.power.state = .run && e.power.softReset.isNone then
      e.looseFault .coverOpen none
    else e

/-- The cover-open event where the channels are energised (R93, R100). -/
def Engine.uncover (e : Engine) : Engine :=
  let moving := e.underWay
  let carriage := e.carriage.busy
  let testHoming := match e.wheel.homing with
    | some h => h.use = .selfTest
    | none => false
  let lift := e.lift.state = .moving
  let testCarriage := carriage && e.carriage.use = .selfTest
  let testLift := lift && e.lift.use = .selfTest
  let e := (e.stopChannels.stopParts carriage).testUncovered testCarriage testHoming testLift
  let e := if lift then e.giveUpEntry else e
  let e := e.prepare.coverFault moving
  if lift && e.power.deepOff = some .lifting then e.enterDeepOff else e

/-- The channels are energised, so that a cover event acts on the wheel (R93). -/
def Engine.energised (e : Engine) : Bool :=
  e.power.state = .run || e.power.state = .starting || e.power.wake.isSome || e.power.softReset.isSome

/-- COVER_OPEN_EVENT (R93, R100). -/
def execCoverOpenEvent (s : State) : Host.Outcome State Fault Refusal :=
  .next (s.on (·.sensorEvent .cover (fun l => { l with closed := false }) fun e =>
    if e.energised then e.uncover else e))

/-! ## The cover closes (R59, R61, R93, R184 to R186) -/

/-- A homing that waited for the cover begins its search (R93). -/
def Engine.beginSearch (h : Homing) (e : Engine) : Engine := e.homeWheel h.use h.required

/-- A waiting cover or recovery homing begins only under the conditions of R93 and R61; those of start-up, a soft reset and a
wake begin at once. DESIGN CHOICE: a cover or recovery homing that R100 has sent back to waiting searches again with the
required id of its first start (R55; log 103). -/
def Engine.resumeHoming (h : Homing) (e : Engine) : Engine :=
  match h.use with
  | .cover =>
    let e' : Engine := { e with wheel := { e.wheel with homing := none } }
    if e'.needsCoverHoming then e'.beginSearch h else e'
  | .recovery =>
    let e' : Engine := { e with wheel := { e.wheel with homing := none } }
    if e'.needsRecovery then e'.beginSearch h else e'
  | .startUp => e.beginSearch h
  | .softReset => e.beginSearch h
  | .wake => e.beginSearch h
  | .change => e
  | .order => e
  | .resume => e
  | .selfTest => e

/-- The parts of a wake and of a soft reset that waited for the cover run again; a carriage part homes again (R184,
R186). -/
def Part.again (p : Part) : Part := if p = .waiting then .running else p

/-- The carriage and lift parts that a cover-open event stopped start again (R184 to R186). -/
def Engine.restartParts (e : Engine) : Engine :=
  let wakes : Bool := match e.power.wake with
    | some w => decide (w.carriage = .waiting)
    | none => false
  let e := e.editWake fun w => { w with carriage := w.carriage.again, wheel := w.wheel.again }
  let e := e.editRehoming fun r => { r with carriage := r.carriage.again, wheel := r.wheel.again }
  let e := match e.power.wake with
    | some w => if wakes then e.homeCarriage .wake (.to w.position) else e
    | none => e
  if e.power.startUp = some .carriage ∧ e.carriage.state = .lost then e.startCarriage else e

/-- The homing of the cover-closed event outside an order: a waiting homing, a recovery homing, or a cover homing (R61,
R93). -/
def Engine.homeLoose (e : Engine) : Engine :=
  match e.wheel.homing with
  | some h => e.resumeHoming h
  | none =>
    if e.needsRecovery then e.startRecovery
    else if e.needsCoverHoming then e.homeWheel .cover e.wheel.before
    else e

/-- The wheel homing that the cover-closed event starts of itself: the HOME phase of a WHEEL_CHANGE that waits for it, or
one outside an order (R59, R61, R93). While a WHEEL_CHANGE is in another phase a waiting cover or recovery homing leaves,
since its conditions do not hold (log 54). -/
def Engine.homeAfterCover (e : Engine) : Engine :=
  match e.executing with
  | some o =>
    match o.kind with
    | .wheelChange x =>
      if o.phase = .awaitClose ∧ e.faults.empty = true then (e.setPhase o .home).homeWheel .change (requiredOf x)
      else e.homeLoose
    | _ => e.homeLoose
  | none => e.homeLoose

/-- The cover-closed event where the channels are energised (R93). Here alone the wait after a failed recovery homing ends
(R61; log 92). -/
def Engine.recover (e : Engine) : Engine :=
  let e : Engine := { e with wheel := { e.wheel with
    state := if e.wheel.state = .off then .unknown else e.wheel.state, recoveryFailed := false } }
  e.restartParts.homeAfterCover

/-- COVER_CLOSED_EVENT (R93). -/
def execCoverClosedEvent (s : State) : Host.Outcome State Fault Refusal :=
  .next (s.on (·.sensorEvent .cover (fun l => { l with closed := true }) fun e =>
    if e.energised then e.recover else e))

/-! ## Flash reads (R48, R140 to R146, R176) -/

/-- The head lookup, when it has a read in progress. -/
def Engine.servedLookup (e : Engine) : Option Lookup :=
  match e.spell.lookups with
  | l :: _ => if l.phase = .waiting then none else some l
  | [] => none

/-- The index read of a lookup ends: an empty bucket gives its verdict, and any other is read. A voided lookup goes on in
the same way, since its reads run to their end (R143, R144). -/
def Engine.indexEnds (bytes : List Byte) (e : Engine) : Engine :=
  match e.servedLookup, bytes with
  | some l, [a, b, c, n] =>
    if n = 0 then e.verdict l false
    else
      { e with
        spell := { e.spell with lookups := { l with phase := .bucket } :: e.spell.lookups.drop 1 }
        port := e.port.ask { address := fromThree a b c, length := n.toNat, asker := .bucket } }
  | _, _ => e

/-- A bucket read ends with the scan, a voided lookup's too: its verdict changes nothing, and a malformed entry fails it
(R143 to R146). -/
def Engine.bucketEnds (bytes : List Byte) (e : Engine) : Engine :=
  match e.servedLookup with
  | none => e
  | some l =>
    match scanBucket l.letters bytes.length bytes with
    | .found => e.verdict l true
    | .missing => e.verdict l false
    | .malformed => e.lookupFails

/-- Step 6 of the self-test, the read of the header, ends (R176). -/
def Engine.testHeader (ok : Bool) (e : Engine) : Engine :=
  match e.selfTest with
  | some t =>
    if t.step = 6 ∧ t.sub = 1 then e.editTest fun t => (if ok then t else t.fail 6).next else e
  | none => e

/-- What the end of a read does for its requester (R48, R141, R144, R176). The size code with which the device has answered a
start-up header read is the identity record's, and stands at the pins for the next one (R195; log 67). -/
def Engine.readEnds (r : FlashRead) (bytes : List Byte) (sizeCode : Half) (e : Engine) : Engine :=
  match r.asker with
  | .startHeader =>
    let e : Engine :=
      { e with pins := { e.pins with flashSize := sizeCode }, port := { e.port with flashSize := sizeCode } }
    e.headerTaken (headerOf bytes) (·.takeHeader (headerOf bytes))
  | .table k => Engine.nextTable (k + 1) { e with slots := e.slots.set k (slotOfTable bytes) }
  | .dictHeader =>
    let spell := e.spell.takeHeader (headerOf bytes)
    let e : Engine := { e with spell := spell }
    (e.offer spell.dictNotice).serveLookups
  | .index => e.indexEnds bytes
  | .bucket => e.bucketEnds bytes
  | .testHeader => e.testHeader (headerOf bytes).isSome

/-- FLASH_READ_END: the read in progress ends with its last byte, and the next waiting read starts (R140). -/
def execFlashReadEnd (bytes : List Byte) (sizeCode : Half) (s : State) : Host.Outcome State Fault Refusal :=
  .next (s.on fun e =>
    match e.port.current with
    | some r =>
      if bytes.length = r.length then
        (Engine.readEnds r bytes sizeCode { e with port := e.port.next }).after
      else e.refresh
    | none => e.refresh)

/-- What a timed-out read does for its requester; a flash device that does not answer the start-up header read has size 0
(R48, R141, R146, R176, R195). -/
def Engine.readFails (r : FlashRead) (e : Engine) : Engine :=
  match r.asker with
  | .startHeader =>
    let e : Engine := { e with port := { e.port with flashSize := 0 } }
    e.headerTaken none fun s => { s with dict := .failed }
  | .table k => Engine.nextTable (k + 1) { e with slots := e.slots.set k {} }
  | .dictHeader =>
    let spell : Spelling := { e.spell with dict := .failed }
    let e : Engine := { e with spell := spell }
    e.offer spell.dictNotice
  | .index => if e.servedLookup.isSome then e.lookupFails else e
  | .bucket => if e.servedLookup.isSome then e.lookupFails else e
  | .testHeader => e.testHeader false

/-- FLASH_READ_TIMEOUT (R140). -/
def execFlashReadTimeout (s : State) : Host.Outcome State Fault Refusal :=
  .next (s.on fun e =>
    match e.port.current with
    | some r => (Engine.readFails r { e with port := e.port.next }).after
    | none => e.refresh)

/-! ## Timers (R77, R154, R158, R160, R180, R181) -/

/-- The view timer expires: the lift moves to VIEW (R77), at once or when what it may not run with has ended (R71). It does not
where the channels are OFF, and during a self-test, which moves the lift itself (R103, R176; log 55). -/
def Engine.viewExpires (e : Engine) : Engine :=
  if e.seq.viewTimer.isSome then
    let e : Engine := { e with seq := { e.seq with viewTimer := none } }
    if e.energised && e.selfTest.isNone then
      if e.mayTravel && e.lift.state ≠ .moving then e.liftTo .view .viewTimer
      else { e with seq := { e.seq with liftToView := true } }
    else e
  else e

/-- VIEW_TIMER_EXPIRY (R77). -/
def execViewTimerExpiry (s : State) : Host.Outcome State Fault Refusal := .next (s.on fun e => e.viewExpires.after)

/-- The standby timer expires: the entry into STANDBY begins (R180). -/
def Engine.standbyExpires (e : Engine) : Engine :=
  if e.power.timer.isSome && e.restful then e.beginEntry .standby else e

/-- STANDBY_TIMER_EXPIRY (R180). -/
def execStandbyTimerExpiry (s : State) : Host.Outcome State Fault Refusal :=
  .next (s.on fun e => e.standbyExpires.after)

/-- A pending entry is entered when the conditions of R180 hold (R181). -/
def Engine.pendingStarts (e : Engine) : Engine :=
  match e.power.pendingEntry with
  | some r => if e.restful && e.power.entering.isNone then e.beginEntry r else e
  | none => e

/-- PENDING_ENTRY_START (R181). -/
def execPendingEntryStart (s : State) : Host.Outcome State Fault Refusal :=
  .next (s.on fun e => e.pendingStarts.after)

/-- The blink timer toggles the phase, and starts again (R154). -/
def Display.blinks (d : Display) : Display :=
  if d.blinkTimer.isSome then { d with phaseOn := !d.phaseOn, blinkTimer := some 500000 } else d

/-- BLINK_TIMER_EXPIRY (R154). -/
def execBlinkTimerExpiry (s : State) : Host.Outcome State Fault Refusal :=
  .next (s.on fun e => Engine.refresh { e with display := e.display.blinks })

/-- The hold timer empties the message area (R158). -/
def Display.holdEnds (d : Display) : Display :=
  if d.holdTimer.isSome then { d with message := .nothing, holdTimer := none } else d

/-- HOLD_TIMER_EXPIRY (R158). -/
def execHoldTimerExpiry (s : State) : Host.Outcome State Fault Refusal :=
  .next (s.on fun e => Engine.refresh { e with display := e.display.holdEnds })

/-- The override's timer ends it (R160). -/
def Display.overrideEnds (d : Display) : Display :=
  if d.overrideTimer.isSome then { d with override := none, overrideTimer := none } else d

/-- OVERRIDE_TIMER_EXPIRY (R160). -/
def execOverrideTimerExpiry (s : State) : Host.Outcome State Fault Refusal :=
  .next (s.on fun e => Engine.refresh { e with display := e.display.overrideEnds })

end Sys2Proof.Machine
end

