-- ==== Sys2Proof/Machine/Dispatch.lean ====
section
/-! DEFINITION. One arm for each constructor of Instr: its meaning. -/

namespace Sys2Proof.Machine

/-- The effect of a command on everything but the queue. -/
def exec (i : Instr) (s : State) : Host.Outcome State Fault Refusal :=
  match i with
  | .hardReset => Sys2Proof.Machine.execHardReset s
  | .receiveByte b => Sys2Proof.Machine.execReceiveByte b s
  | .byteError => Sys2Proof.Machine.execByteError s
  | .huntIdleTimeout => Sys2Proof.Machine.execHuntIdleTimeout s
  | .gapTimerExpiry => Sys2Proof.Machine.execGapTimerExpiry s
  | .unknownFrame typ => Sys2Proof.Machine.execUnknownFrame typ s
  | .transmitFrameEnd => Sys2Proof.Machine.execTransmitFrameEnd s
  | .key entries => Sys2Proof.Machine.execKey entries s
  | .setMode value => Sys2Proof.Machine.execSetMode value s
  | .setPitch value => Sys2Proof.Machine.execSetPitch value s
  | .setLeftMargin position => Sys2Proof.Machine.execSetLeftMargin position s
  | .setRightMargin position => Sys2Proof.Machine.execSetRightMargin position s
  | .tabSet position => Sys2Proof.Machine.execTabSet position s
  | .tabClear position => Sys2Proof.Machine.execTabClear position s
  | .tabClearAll => Sys2Proof.Machine.execTabClearAll s
  | .setAlign value => Sys2Proof.Machine.execSetAlign value s
  | .setDistribute value => Sys2Proof.Machine.execSetDistribute value s
  | .setImpression value => Sys2Proof.Machine.execSetImpression value s
  | .setEnergy cls setting onTime => Sys2Proof.Machine.execSetEnergy cls setting onTime s
  | .setSpacing halfLines => Sys2Proof.Machine.execSetSpacing halfLines s
  | .setBellZone steps => Sys2Proof.Machine.execSetBellZone steps s
  | .setSpell value => Sys2Proof.Machine.execSetSpell value s
  | .setBidi value => Sys2Proof.Machine.execSetBidi value s
  | .setStandbyTimer units => Sys2Proof.Machine.execSetStandbyTimer units s
  | .setContrast level => Sys2Proof.Machine.execSetContrast level s
  | .wheelTablePiece0 slot wheel cls space underline => Sys2Proof.Machine.execWheelTablePiece0 slot wheel cls space underline s
  | .wheelTablePiece slot piece entries => Sys2Proof.Machine.execWheelTablePiece slot piece entries s
  | .wheelChange expected => Sys2Proof.Machine.execWheelChange expected s
  | .readLine piece => Sys2Proof.Machine.execReadLine piece s
  | .release => Sys2Proof.Machine.execRelease s
  | .accept word => Sys2Proof.Machine.execAccept word s
  | .addWord glyphs => Sys2Proof.Machine.execAddWord glyphs s
  | .removeWord glyphs => Sys2Proof.Machine.execRemoveWord glyphs s
  | .dictionary => Sys2Proof.Machine.execDictionary s
  | .displayText seconds codes => Sys2Proof.Machine.execDisplayText seconds codes s
  | .status => Sys2Proof.Machine.execStatus s
  | .statusClearAccrued => Sys2Proof.Machine.execStatusClearAccrued s
  | .identify => Sys2Proof.Machine.execIdentify s
  | .selfTest => Sys2Proof.Machine.execSelfTest s
  | .saveContext => Sys2Proof.Machine.execSaveContext s
  | .restoreContext form => Sys2Proof.Machine.execRestoreContext form s
  | .resume => Sys2Proof.Machine.execResume s
  | .flush => Sys2Proof.Machine.execFlush s
  | .pause => Sys2Proof.Machine.execPause s
  | .continuing => Sys2Proof.Machine.execContinue s
  | .standby => Sys2Proof.Machine.execStandby s
  | .sleep => Sys2Proof.Machine.execSleep s
  | .deepOff => Sys2Proof.Machine.execDeepOff s
  | .wake => Sys2Proof.Machine.execWake s
  | .reset => Sys2Proof.Machine.execReset s
  | .paperLoad => Sys2Proof.Machine.execPaperLoad s
  | .paperEject => Sys2Proof.Machine.execPaperEject s
  | .printableKey => Sys2Proof.Machine.execPrintableKey s
  | .space => Sys2Proof.Machine.execSpace s
  | .returnKey => Sys2Proof.Machine.execReturn s
  | .paragraphReturn => Sys2Proof.Machine.execParagraphReturn s
  | .backspace => Sys2Proof.Machine.execBackspace s
  | .tab => Sys2Proof.Machine.execTab s
  | .marginRelease => Sys2Proof.Machine.execMarginRelease s
  | .index => Sys2Proof.Machine.execIndex s
  | .reverseIndex => Sys2Proof.Machine.execReverseIndex s
  | .halfUp => Sys2Proof.Machine.execHalfUp s
  | .halfDown => Sys2Proof.Machine.execHalfDown s
  | .correct => Sys2Proof.Machine.execCorrect s
  | .correctWord => Sys2Proof.Machine.execCorrectWord s
  | .correctLine => Sys2Proof.Machine.execCorrectLine s
  | .relocate => Sys2Proof.Machine.execRelocate s
  | .orderStart => Sys2Proof.Machine.execOrderStart s
  | .carriageMoveEnd => Sys2Proof.Machine.execCarriageMoveEnd s
  | .carriageEncoderEdge => Sys2Proof.Machine.execCarriageEncoderEdge s
  | .carriageMotionTimerExpiry => Sys2Proof.Machine.execCarriageMotionTimerExpiry s
  | .homeFlagChange active => Sys2Proof.Machine.execHomeFlagChange active s
  | .homeStepLimit => Sys2Proof.Machine.execHomeStepLimit s
  | .wheelSettled => Sys2Proof.Machine.execWheelSettled s
  | .wheelRotationTimerExpiry => Sys2Proof.Machine.execWheelRotationTimerExpiry s
  | .indexMark width => Sys2Proof.Machine.execIndexMark width s
  | .wheelSearchLimit => Sys2Proof.Machine.execWheelSearchLimit s
  | .codeMark width => Sys2Proof.Machine.execCodeMark width s
  | .recoveryHomingStart => Sys2Proof.Machine.execRecoveryHomingStart s
  | .platenEncoderEdge forward => Sys2Proof.Machine.execPlatenEncoderEdge forward s
  | .platenMotionTimerExpiry => Sys2Proof.Machine.execPlatenMotionTimerExpiry s
  | .liftSwitchChange lsw1Closed lsw0Closed => Sys2Proof.Machine.execLiftSwitchChange lsw1Closed lsw0Closed s
  | .liftTimerExpiry => Sys2Proof.Machine.execLiftTimerExpiry s
  | .onTimeEnd => Sys2Proof.Machine.execOnTimeEnd s
  | .restEnd => Sys2Proof.Machine.execRestEnd s
  | .hammerHome => Sys2Proof.Machine.execHammerHome s
  | .stuckTimerExpiry => Sys2Proof.Machine.execStuckTimerExpiry s
  | .sensorChange sensor level => Sys2Proof.Machine.execSensorChange sensor level s
  | .coverOpenEvent => Sys2Proof.Machine.execCoverOpenEvent s
  | .coverClosedEvent => Sys2Proof.Machine.execCoverClosedEvent s
  | .releaseLeverChange engaged => Sys2Proof.Machine.execReleaseLeverChange engaged s
  | .flashReadEnd bytes sizeCode => Sys2Proof.Machine.execFlashReadEnd bytes sizeCode s
  | .flashReadTimeout => Sys2Proof.Machine.execFlashReadTimeout s
  | .viewTimerExpiry => Sys2Proof.Machine.execViewTimerExpiry s
  | .standbyTimerExpiry => Sys2Proof.Machine.execStandbyTimerExpiry s
  | .pendingEntryStart => Sys2Proof.Machine.execPendingEntryStart s
  | .blinkTimerExpiry => Sys2Proof.Machine.execBlinkTimerExpiry s
  | .holdTimerExpiry => Sys2Proof.Machine.execHoldTimerExpiry s
  | .overrideTimerExpiry => Sys2Proof.Machine.execOverrideTimerExpiry s

end Sys2Proof.Machine
end

