-- ==== Sys2Proof/WellFormed.lean ====
section
/-! DEFINITION. Which commands the table's rows can stand for. The catalogue of R192 bounds the payload lengths, R1
the keys of a KEY request, R49 and R50 the pieces of a wheel table, R140 and R48 the reads of the flash. Operand values
that a rule answers with a status of its own are well formed. -/

set_option Elab.async false

namespace Sys2Proof

/-- The types that the catalogue names (R192). -/
def Instr.requestTypes : List Nat :=
  [0x01, 0x02, 0x04, 0x05, 0x06, 0x07, 0x08, 0x09, 0x0A, 0x0C, 0x0D, 0x0E, 0x0F, 0x10, 0x11, 0x12, 0x13, 0x14, 0x15,
    0x16, 0x17, 0x18, 0x19, 0x1A, 0x1B, 0x1C]

/-- A command that its row can stand for. -/
def Instr.wellFormed (i : Instr) : Bool :=
  match i with
  | .key entries => 1 ≤ entries.length && entries.length ≤ 16
  | .wheelTablePiece _ piece entries => piece ≠ 0 && entries.length = 8
  | .addWord glyphs => 2 ≤ glyphs.length && glyphs.length ≤ 24
  | .removeWord glyphs => 2 ≤ glyphs.length && glyphs.length ≤ 24
  | .displayText _ codes => codes.length = 40
  | .restoreContext form => 1 ≤ form.length && form.length ≤ 57
  | .unknownFrame typ => typ.toNat ∉ requestTypes
  | .flashReadEnd bytes _ => 1 ≤ bytes.length && bytes.length ≤ 292
  | .hardReset => true
  | .receiveByte _ => true
  | .byteError => true
  | .huntIdleTimeout => true
  | .gapTimerExpiry => true
  | .transmitFrameEnd => true
  | .setMode _ => true
  | .setPitch _ => true
  | .setLeftMargin _ => true
  | .setRightMargin _ => true
  | .tabSet _ => true
  | .tabClear _ => true
  | .tabClearAll => true
  | .setAlign _ => true
  | .setDistribute _ => true
  | .setImpression _ => true
  | .setEnergy _ _ _ => true
  | .setSpacing _ => true
  | .setBellZone _ => true
  | .setSpell _ => true
  | .setBidi _ => true
  | .setStandbyTimer _ => true
  | .setContrast _ => true
  | .wheelTablePiece0 _ _ _ _ _ => true
  | .wheelChange _ => true
  | .readLine _ => true
  | .release => true
  | .accept _ => true
  | .dictionary => true
  | .status => true
  | .statusClearAccrued => true
  | .identify => true
  | .selfTest => true
  | .saveContext => true
  | .resume => true
  | .flush => true
  | .pause => true
  | .continuing => true
  | .standby => true
  | .sleep => true
  | .deepOff => true
  | .wake => true
  | .reset => true
  | .paperLoad => true
  | .paperEject => true
  | .printableKey => true
  | .space => true
  | .returnKey => true
  | .paragraphReturn => true
  | .backspace => true
  | .tab => true
  | .marginRelease => true
  | .index => true
  | .reverseIndex => true
  | .halfUp => true
  | .halfDown => true
  | .correct => true
  | .correctWord => true
  | .correctLine => true
  | .relocate => true
  | .orderStart => true
  | .carriageMoveEnd => true
  | .carriageEncoderEdge => true
  | .carriageMotionTimerExpiry => true
  | .homeFlagChange _ => true
  | .homeStepLimit => true
  | .wheelSettled => true
  | .wheelRotationTimerExpiry => true
  | .indexMark _ => true
  | .wheelSearchLimit => true
  | .codeMark _ => true
  | .recoveryHomingStart => true
  | .platenEncoderEdge _ => true
  | .platenMotionTimerExpiry => true
  | .liftSwitchChange _ _ => true
  | .liftTimerExpiry => true
  | .onTimeEnd => true
  | .restEnd => true
  | .hammerHome => true
  | .stuckTimerExpiry => true
  | .sensorChange _ _ => true
  | .coverOpenEvent => true
  | .coverClosedEvent => true
  | .releaseLeverChange _ => true
  | .flashReadTimeout => true
  | .viewTimerExpiry => true
  | .standbyTimerExpiry => true
  | .pendingEntryStart => true
  | .blinkTimerExpiry => true
  | .holdTimerExpiry => true
  | .overrideTimerExpiry => true

end Sys2Proof
end

