-- ==== Sys2Proof/Safety.lean ====
section
/-! DEFINITION. The terms in which claims are made: the parts of the state and what a command leaves alone, what a reply
or a notice does to the outgoing line, the conditions under which commands act, and the invariants of the state. -/

set_option Elab.async false

namespace Sys2Proof.Machine

/-! ## Parts of the state, and frames -/

/-- The parts into which claims divide the state. What follows every command belongs to no part: the derived display cells
with what was last sent of them, the blink phase as the module has it (R151, R154), and the mounted wheel as the last event
found it. -/
inductive Piece where
  | receiver
  | outgoing
  | keys
  | cursor
  | vTarget
  | line
  | word
  | bellFlags
  | relocate
  | compWheel
  | settings
  | lineFlags
  | slots
  | queue
  | ids
  | ink
  | recovery
  | carriage
  | wheel
  | platen
  | lift
  | hammer
  | levels
  | pins
  | memory
  | words
  | userList
  | dictionary
  | port
  | light
  | window
  | message
  | override
  | faults
  | selfTest
  | power
  | standbyTimer
  | openValues
deriving DecidableEq, Repr

/-- A part of the state is the same before and after. -/
def Piece.same (p : Piece) (e f : Engine) : Prop :=
  match p with
  | .receiver => f.link.rx = e.link.rx
  | .outgoing => f.link.replies = e.link.replies ∧ f.link.tx = e.link.tx ∧ f.link.notices = e.link.notices
  | .keys => f.comp.keys = e.comp.keys ∧ f.comp.composed = e.comp.composed
  | .cursor => f.comp.cursor = e.comp.cursor
  | .vTarget => f.comp.vTarget = e.comp.vTarget
  | .line => f.comp.line = e.comp.line ∧ f.comp.index = e.comp.index
  | .word => f.comp.word = e.comp.word
  | .bellFlags => f.comp.bellRung = e.comp.bellRung ∧ f.comp.marginRelease = e.comp.marginRelease
  | .relocate => f.comp.relocateH = e.comp.relocateH ∧ f.comp.relocateV = e.comp.relocateV
  | .compWheel => f.comp.wheel = e.comp.wheel
  | .settings => f.set = e.set
  | .lineFlags => f.esc = e.esc
  | .slots => f.slots = e.slots
  | .queue =>
    f.seq.state = e.seq.state ∧ f.seq.pausePending = e.seq.pausePending ∧ f.seq.queue = e.seq.queue ∧
    f.seq.stageState = e.seq.stageState ∧ f.seq.stage = e.seq.stage ∧ f.seq.groups = e.seq.groups ∧
    f.seq.viewTimer = e.seq.viewTimer ∧ f.seq.liftToView = e.seq.liftToView
  | .ids => f.seq.lastGroup = e.seq.lastGroup ∧ f.seq.nextOrder = e.seq.nextOrder
  | .ink =>
    f.seq.printPoint = e.seq.printPoint ∧ f.seq.ribbonSteps = e.seq.ribbonSteps ∧ f.seq.tapeUnits = e.seq.tapeUnits
  | .recovery => f.seq.recovery = e.seq.recovery
  | .carriage => f.carriage = e.carriage
  | .wheel => { f.wheel with found := none } = { e.wheel with found := none }
  | .platen => f.platen = e.platen
  | .lift => f.lift = e.lift
  | .hammer => f.hammer = e.hammer
  | .levels => f.levels = e.levels
  | .pins => f.pins = e.pins
  | .memory => f.memory = e.memory
  | .words => f.spell.words = e.spell.words ∧ f.spell.lastWord = e.spell.lastWord ∧ f.spell.lookups = e.spell.lookups
  | .userList => f.spell.user = e.spell.user
  | .dictionary =>
    f.spell.dict = e.spell.dict ∧ f.spell.bucketCount = e.spell.bucketCount ∧
    f.spell.wordCount = e.spell.wordCount ∧ f.spell.indexOffset = e.spell.indexOffset ∧
    f.spell.tableCount = e.spell.tableCount ∧ f.spell.tableOffset = e.spell.tableOffset
  | .port => f.port = e.port
  | .light => f.display.lit = e.display.lit ∧ f.display.phaseOn = e.display.phaseOn ∧
    f.display.blinkTimer = e.display.blinkTimer
  | .window => f.display.window = e.display.window
  | .message => f.display.message = e.display.message ∧ f.display.holdTimer = e.display.holdTimer
  | .override => f.display.override = e.display.override ∧ f.display.overrideTimer = e.display.overrideTimer
  | .faults => f.faults = e.faults
  | .selfTest => f.selfTest = e.selfTest
  | .power => { f.power with timer := none, conditions := false } = { e.power with timer := none, conditions := false }
  | .standbyTimer => f.power.timer = e.power.timer ∧ f.power.conditions = e.power.conditions
  | .openValues => f.free = e.free

/-- Every part but those named is the same before and after. -/
def Same (touched : List Piece) (e f : Engine) : Prop := ∀ p, p ∉ touched → p.same e f

/-- A command leaves every part but those named as it was, and the commands behind it too. -/
def Keeps (touched : List Piece) (s t : State) : Prop := t.pending = s.pending ∧ Same touched s.toEngine t.toEngine

/-- The parts that `Engine.settle` may change. -/
def settleParts : List Piece := [.outgoing, .queue, .lift, .message, .faults, .power, .standbyTimer]

/-- The parts that the next step of whatever waits for a channel may change. -/
def mechanismParts : List Piece :=
  [.queue, .ink, .line, .memory, .outgoing, .message, .carriage, .wheel, .platen, .lift, .hammer, .pins, .selfTest,
    .openValues, .port, .recovery, .power, .standbyTimer, .light, .override, .faults]

/-! ## The outgoing line -/

/-- The link after a reply has joined the reply list (R189, R190). -/
def Link.replied (typ : Byte) (payload : List Byte) (l : Link) : Link :=
  Link.pump { l with replies := l.replies ++ [⟨⟨typ, payload⟩, false⟩] }

/-- The link after a notice has been offered (R190, R191). -/
def Link.noticed (n : Notice) (l : Link) : Link := Link.pump { l with notices := takeNotice n l.notices }

/-- A reply is on the line or in the reply list. -/
def Engine.answered (typ : Byte) (payload : List Byte) (e : Engine) : Prop :=
  e.link.tx = some ⟨⟨typ, payload⟩, false⟩ ∨ ⟨⟨typ, payload⟩, false⟩ ∈ e.link.replies

/-! ## Conditions -/

/-- A request frame finds room in the reply list, and the part is neither off nor on its way there (R182, R189). -/
abbrev Engine.hears (e : Engine) : Prop :=
  e.link.replies.length < 8 ∧ e.power.state ≠ .deepOff ∧ e.power.deepOff = none

/-- The conditions of R3 that hold for every head key. -/
abbrev Engine.composes (e : Engine) : Prop :=
  e.power.state = .run ∧ e.comp.wheel.isSome = true ∧ e.faults.x = none ∧ e.faults.p = none ∧
  ∀ o ∈ e.seq.queue, o.kind ≠ .wheelChange 0

/-- The release stage is EMPTY with nothing in it, and the strike queue has room for some orders (R3, R4). -/
abbrev Engine.takesOrders (n : Nat) (e : Engine) : Prop :=
  e.seq.stageState = .empty ∧ e.seq.stage = [] ∧ e.seq.queue.length + n ≤ 32

/-- No order waits anywhere, and nothing of the sequencer or of power control is left to do. -/
abbrev Engine.still (e : Engine) : Prop :=
  e.seq.queue = [] ∧ e.seq.stage = [] ∧ e.seq.stageState = .empty ∧ e.seq.groups = [] ∧ e.seq.state ≠ .running ∧
  e.seq.liftToView = false ∧ e.power.entering = none

/-- Nothing waits for a motion channel: no order executes, and no test, recovery, re-homing, entry, start-up step or
way to DEEP_OFF is under way. -/
abbrev Engine.idleChannels (e : Engine) : Prop :=
  e.executing = none ∧ e.selfTest = none ∧ e.seq.recovery = {} ∧ e.power.softReset = none ∧ e.power.entering = none ∧
  e.power.startUp = none ∧ e.power.deepOff = none

/-- Nothing but an order may own a motion: no wake, test, recovery, re-homing, entry, start-up step or way to DEEP_OFF
is under way, and the part is not off. -/
abbrev Engine.aside (e : Engine) : Prop :=
  e.power.state ≠ .deepOff ∧ e.power.wake = none ∧ e.selfTest = none ∧ e.seq.recovery = {} ∧
  e.power.softReset = none ∧ e.power.entering = none ∧ e.power.startUp = none ∧ e.power.deepOff = none

/-- The part in RUN with the channels idle and the queues empty: nothing follows an event of its own accord. -/
abbrev Engine.resting (e : Engine) : Prop :=
  e.power.state = .run ∧ e.power.wake = none ∧ e.still ∧ e.idleChannels

/-- The part is on, and neither on its way to DEEP_OFF nor entering STANDBY or SLEEP. -/
abbrev Engine.staysOn (e : Engine) : Prop :=
  e.power.state ≠ .deepOff ∧ e.power.deepOff = none ∧ e.power.entering = none

/-! ## How homings end -/

/-- The commands that end a motion of the carriage with CARRIAGE_STALL: the timer's expiry under way, and the 48 steps of a
homing's part to the right (R88, R89). -/
def Carriage.failsAt (c : Carriage) (i : Instr) : Bool :=
  match i with
  | .carriageMotionTimerExpiry => c.state = .moving || c.state = .homing
  | .homeStepLimit => c.state = .homing && c.rightwards
  | _ => false

/-- The code that a further code mark completes: each mark gives one bit, 1 if it is 1.5 times as wide as the index mark or
wider, most significant first (R91, R92). -/
def codeRead (index : Nat) (bits : List Bool) (width : Nat) : Nat :=
  (bits ++ [decide (3 * index ≤ 2 * width)]).foldl (fun n b => 2 * n + (if b then 1 else 0)) 0

/-- The commands that end a homing of the wheel FAILED, with its fault: 2 revolutions without an index mark, a second index
mark among the code marks, the codes 0 and 255, and the timer of the rotation to petal 0 (R91). -/
def Homing.failsAt (h : Homing) (i : Instr) : Option FaultKind :=
  match h.phase, i with
  | .search, .wheelSearchLimit => some .wheelHomeFail
  | .read _ _, .indexMark _ => some .wheelHomeFail
  | .read index bits, .codeMark width =>
    if bits.length = 7 ∧ (codeRead index bits width = 0 ∨ codeRead index bits width = 255) then some .wheelHomeFail else none
  | .park _, .wheelRotationTimerExpiry => some .wheelStall
  | _, _ => none

/-- The outcome of a homing that has read a code, when the order that started it may stand alone in the queue or none may
(R56). -/
def Homing.ends (h : Homing) (code : Nat) (alone : Bool) : HomingOutcome :=
  if h.required = none ∨ h.required = some code then .mounted else if alone then .adopted else .mismatch

/-! ## Requests as frames -/

/-- A two-byte field, most significant byte first (layouts). -/
def halfBytes (h : Half) : List Byte := [h.extractLsb' 8 8, h.extractLsb' 0 8]

/-- The frame that spells a request (R192, R193, layouts); none for a command that is no request. -/
def requestFrame (i : Instr) : Option Frame :=
  match i with
  | .key entries => some ⟨0x01, entries.flatMap fun k => [k.code, k.attributes]⟩
  | .setMode v => some ⟨0x02, [0x01, v]⟩
  | .setPitch v => some ⟨0x02, [0x02, v]⟩
  | .setLeftMargin p => some ⟨0x02, 0x03 :: halfBytes p⟩
  | .setRightMargin p => some ⟨0x02, 0x04 :: halfBytes p⟩
  | .tabSet p => some ⟨0x02, 0x05 :: halfBytes p⟩
  | .tabClear p => some ⟨0x02, 0x06 :: halfBytes p⟩
  | .tabClearAll => some ⟨0x02, [0x07]⟩
  | .setAlign v => some ⟨0x02, [0x08, v]⟩
  | .setDistribute v => some ⟨0x02, [0x09, v]⟩
  | .setImpression v => some ⟨0x02, [0x0A, v]⟩
  | .setEnergy cls setting t => some ⟨0x02, 0x0B :: cls :: setting :: halfBytes t⟩
  | .setSpacing v => some ⟨0x02, [0x0C, v]⟩
  | .setBellZone n => some ⟨0x02, 0x0D :: halfBytes n⟩
  | .setSpell v => some ⟨0x02, [0x0E, v]⟩
  | .setBidi v => some ⟨0x02, [0x0F, v]⟩
  | .setStandbyTimer n => some ⟨0x02, 0x10 :: halfBytes n⟩
  | .setContrast v => some ⟨0x02, [0x11, v]⟩
  | .wheelTablePiece0 slot wheel cls space under => some ⟨0x04, [slot, 0, wheel, cls, space, under]⟩
  | .wheelTablePiece slot piece entries =>
    some ⟨0x04, slot :: piece :: entries.flatMap fun g => [g.petal, g.units, g.cls]⟩
  | .wheelChange expected => some ⟨0x05, [expected]⟩
  | .readLine piece => some ⟨0x06, [piece]⟩
  | .release => some ⟨0x07, []⟩
  | .accept word => some ⟨0x08, [word]⟩
  | .addWord glyphs => some ⟨0x09, glyphs⟩
  | .removeWord glyphs => some ⟨0x0A, glyphs⟩
  | .dictionary => some ⟨0x0C, []⟩
  | .displayText seconds codes => some ⟨0x0D, seconds :: codes⟩
  | .status => some ⟨0x0E, []⟩
  | .statusClearAccrued => some ⟨0x0E, [0x01]⟩
  | .identify => some ⟨0x0F, []⟩
  | .selfTest => some ⟨0x10, []⟩
  | .saveContext => some ⟨0x11, []⟩
  | .restoreContext form => some ⟨0x12, form⟩
  | .resume => some ⟨0x13, []⟩
  | .flush => some ⟨0x14, []⟩
  | .pause => some ⟨0x15, []⟩
  | .continuing => some ⟨0x16, []⟩
  | .standby => some ⟨0x17, []⟩
  | .sleep => some ⟨0x18, []⟩
  | .deepOff => some ⟨0x19, []⟩
  | .wake => some ⟨0x1A, []⟩
  | .reset => some ⟨0x1B, []⟩
  | .paperLoad => some ⟨0x1C, [0x00]⟩
  | .paperEject => some ⟨0x1C, [0x01]⟩
  | .unknownFrame typ => some ⟨typ, []⟩
  | _ => none

/-- The part with its receiver IDLE. -/
def State.receiverIdle (s : State) : State := { s with link := { s.link with rx := {} } }

/-- A SET request is answered with a status, and leaves the settings as given and everything else as it was. -/
def SetAnswered (i : Instr) (s : State) (status : Byte) (set : Settings) : Prop :=
  ∃ t, exec i s = .next t ∧ t.set = set ∧ t.link = s.link.replied 0x42 [status] ∧ Keeps [.outgoing, .settings] s t

/-- A request is answered without an effect of its own: the settling that follows it changes its own parts alone, and
nothing when the queues are at rest. -/
def Refused (i : Instr) (s : State) (typ : Byte) (payload : List Byte) : Prop :=
  ∃ t, exec i s = .next t ∧ t.answered typ payload ∧ Keeps (.openValues :: settleParts) s t ∧
    (s.settle = s.toEngine → Keeps [.outgoing] s t)

/-- A carriage move, a lift move or a fire may start (R71, R72). -/
abbrev Engine.quiet (e : Engine) : Prop :=
  e.platen.state ≠ .feeding ∧ e.hammer.state ≠ .on ∧ e.hammer.state ≠ .rest

/-- An OVERFLOW notice. -/
def Notice.isOverflow (n : Notice) : Bool :=
  match n with
  | .overflow _ => true
  | _ => false

/-- A notice has joined a notice queue that was empty, behind a frame that is on the line (R190, R191). -/
abbrev Engine.raised (n : Notice) (e : Engine) : Prop := n ∈ e.link.notices

/-- OVERFLOW stands in the notice queue: notices have been lost (R191). -/
abbrev Engine.overflowed (e : Engine) : Prop := ∃ n ∈ e.link.notices, n.isOverflow = true

/-- The correction record that a LIFT refers to. -/
def Engine.liftRecord (o : Order) (e : Engine) : Option Record :=
  match o.kind with
  | .lift (.record k) => e.memory.records.find? fun r => r.slot = k
  | _ => none

/-- A LIFT has its record (R67, step 1). -/
abbrev Engine.lasts (o : Order) (e : Engine) : Prop := o.kind.name = .lift → (e.liftRecord o).isSome = true

/-- The checks of R67 from step 2 on, each as whether it fails for the order, with its fault kind; the first that fails
decides. -/
def Engine.failure (o : Order) (e : Engine) : Option FaultKind :=
  let l := e.levels
  let strike : Bool := o.kind.name = .strike
  let lift : Bool := o.kind.name = .lift
  let known := e.slots.any fun w => w.state = .ready && e.wheel.mounted = some w.id
  let lacks := match o.kind with
    | .strike f => if f.glyph.isSome then f.petal.isNone else f.underlinePetal.isNone
    | _ => false
  let other := match e.liftRecord o with
    | some r => e.wheel.mounted ≠ some r.wheel
    | none => false
  let checks : List (Bool × FaultKind) :=
    [(o.kind.name ≠ .wheelChange && !l.closed, .coverOpen), ((strike || lift) && !known, .noWheelTable),
     (lacks, .absentPetal), (other, .liftWheel), ((strike || lift) && !l.present, .paperOut),
     (strike && l.ribbonEnd, .ribbonEnd), (lift && l.tapeEnd, .tapeEnd)]
  (checks.find? (·.1)).map (·.2)

/-- The glyph that a fault of an order names (R164). -/
def Engine.glyphOf (o : Order) (e : Engine) : Option Byte :=
  match o.kind with
  | .strike f => f.glyph
  | .lift _ => match o.copy with
    | some c => c.glyph
    | none => (e.liftRecord o).bind (·.glyph)
  | _ => none

/-- A fault without an order is written to an empty record's X slot: the sequencer is FAULTED unless STOPPED, and the
FAULT notice is raised (R76, R102, R165). -/
abbrev WritesFault (kind : FaultKind) (required : Option Nat) (s t : State) : Prop :=
  s.faults.x = none → s.faults.p = none →
    t.faults.x = some { kind := kind, order := none, group := 0, target := none, glyph := none, afterHammer := false,
                        required := required, count := 0, kinds := [] } ∧
    (s.seq.state ≠ .stopped → t.seq.state = .faulted) ∧
    (s.link.tx ≠ none → s.link.notices = [] → t.raised (.fault .x kind none false 0 none none required))

/-- A fault of the executing order is written to an empty record's X slot (R76, R164, R165). -/
abbrev WritesOrderFault (kind : FaultKind) (o : Order) (s t : State) : Prop :=
  s.faults.x = none → s.faults.p = none →
    t.faults.x = some { kind := kind, order := some o.kind.name, group := o.group
                        target := some (o.horizontal, o.vertical), glyph := s.glyphOf o, afterHammer := o.afterHammer
                        required := none, count := 0, kinds := [] } ∧
    (s.seq.state ≠ .stopped → t.seq.state = .faulted) ∧
    (s.link.tx ≠ none → s.link.notices = [] →
      t.raised (.fault .x kind (some o.kind.name) o.afterHammer o.group (s.glyphOf o)
        (some (o.horizontal, o.vertical)) none) ∨ t.overflowed)

/-- The held failure of the P order is written to an empty P slot: the sequencer is FAULTED unless STOPPED, and the FAULT
notice is raised (R68, R164, R165). -/
abbrev WritesHeld (kind : FaultKind) (o : Order) (s t : State) : Prop :=
  s.faults.p = none →
    t.faults.p = some { kind := kind, order := some o.kind.name, group := o.group
                        target := some (o.horizontal, o.vertical), glyph := s.glyphOf o, afterHammer := false
                        required := none, count := 0, kinds := [] } ∧
    (s.seq.state ≠ .stopped → t.seq.state = .faulted) ∧
    (s.link.tx ≠ none → s.link.notices = [] →
      t.raised (.fault .p kind (some o.kind.name) false o.group (s.glyphOf o) (some (o.horizontal, o.vertical)) none) ∨
        t.overflowed)

/-- The bell test after a key that has taken the cursor to a position (R8): with the flag given clear and the cursor in the bell
zone, which runs from the right margin less the zone up to the right margin, both included, BELL(APPROACH) is raised and the
bell-rung flag set; otherwise the flag stays, and that bell is not raised. -/
abbrev BellTested (rung : Bool) (y : Nat) (s t : State) : Prop :=
  let rings := rung = false ∧ s.set.right ≤ y + s.set.bellZone ∧ y ≤ s.set.right
  (t.comp.bellRung = true ↔ rung = true ∨ rings) ∧
  (s.link.tx ≠ none → s.link.notices = [] → (t.raised (.bell .approach) ↔ rings))

/-- The content of a cell for a glyph that may be missing (R15). -/
def shownContent (glyph : Option Byte) : Content :=
  match glyph with
  | some g => .glyph g
  | none => .underlinedSpace

/-- The candidate cell of a record (R15). -/
def Record.candidate (r : Record) : Cell :=
  { start := r.horizontal, width := r.width, content := shownContent r.glyph, bold := r.fired.contains .shadow
    underline := r.fired.contains .under1 || r.fired.contains .under2, word := r.word, origin := .onPaper (some r.slot) }

/-- The candidate cell of an order: a STRIKE has one (R15). -/
def Order.candidate (o : Order) : Option Cell :=
  match o.kind with
  | .strike f => some
    { start := o.horizontal, width := f.width, content := shownContent f.glyph, bold := f.bold, underline := f.underline
      word := f.word, origin := .queued o.number }
  | _ => none

/-- The newest candidate at a start position on the line at the vertical target: that of the last order there, or else of the
record last struck there (R15). -/
def Engine.newestAt (records : List Record) (orders : List Order) (x : Nat) (e : Engine) : Option Cell :=
  let here := fun (v : VPos) (c : Cell) => if v = e.comp.vTarget ∧ c.start = x then some c else none
  match orders.reverse.findSome? fun o => o.candidate.bind (here o.vertical) with
  | some c => some c
  | none => records.reverse.findSome? fun r => here r.vertical r.candidate

/-- The line is the one that a rebuild makes of the given records and orders, each list oldest first: one cell for each start
position, the newest candidate there, in ascending order, the 200 smallest starts (R8, R15). -/
abbrev Engine.linedUp (e : Engine) (records : List Record) (orders : List Order) : Prop :=
  e.comp.line.Pairwise (fun c d => c.start < d.start) ∧ e.comp.line.length ≤ 200 ∧
  (∀ c ∈ e.comp.line, e.newestAt records orders c.start = some c) ∧
  ∀ x ∈ records.map (·.horizontal) ++ orders.map (·.horizontal), e.newestAt records orders x ≠ none →
    (∃ c ∈ e.comp.line, c.start = x) ∨ (e.comp.line.length = 200 ∧ ∀ c ∈ e.comp.line, c.start < x)

/-! ## Invariants -/

/-- The settings lie in their ranges (R5, R23 to R25, R51, R52, R161, R180). -/
abbrev SettingsOk (set : Settings) : Prop :=
  set.left + 120 ≤ set.right ∧ set.right ≤ 1599 ∧
  set.tabs.length ≤ 16 ∧ set.tabs.Pairwise (· < ·) ∧ (∀ t ∈ set.tabs, t ≤ 1599) ∧
  set.spacing ∈ [8, 12, 16, 20, 24] ∧ set.bellZone ≤ 240 ∧
  (1 ≤ set.impression ∧ set.impression ≤ 3) ∧
  (set.energy.length = 4 ∧ ∀ row ∈ set.energy, row.length = 3 ∧ ∀ t ∈ row, 400 ≤ t ∧ t ≤ 2000) ∧
  set.standby ≤ 255 ∧ set.contrast ≤ 15

/-- The reply list and the notice queue keep their capacities, and a full notice queue ends in OVERFLOW (R189, R191). -/
abbrev LinkOk (l : Link) : Prop :=
  l.replies.length ≤ 8 ∧
  (l.notices.length ≤ 15 ∨ (l.notices.length = 16 ∧ ∃ k ≤ 255, l.notices.getLast? = some (.overflow k))) ∧
  (l.tx = none → l.replies = [] ∧ l.notices = [])

/-- The checker's tables keep their capacities, and no id stands twice in the word table (R131, R136, R143). -/
abbrev SpellOk (s : Spelling) : Prop :=
  s.words.length ≤ 32 ∧ (s.words.map (·.id)).Nodup ∧ s.lookups.length ≤ 4 ∧ s.user.length ≤ 64 ∧ s.user.Nodup

/-- The correction memory keeps its capacity, and no slot holds two records (R106, R107). -/
abbrev MemoryOk (m : Memory) : Prop :=
  m.records.length ≤ 512 ∧ (m.records.map (·.slot)).Nodup ∧ ∀ r ∈ m.records, r.slot < 512

/-- No two orders of the strike queue and the release stage carry one number, and every later order takes a fresh one
(log 9). -/
abbrev NumbersOk (s : Sequencer) : Prop :=
  ((s.queue ++ s.stage).map (·.number)).Nodup ∧ ∀ o ∈ s.queue ++ s.stage, o.number < s.nextOrder

/-- The places at the head of the strike queue up to the P order: only they hold orders that are not plainly QUEUED
(R65). -/
abbrev Sequencer.taken (s : Sequencer) : Nat := if s.queue.head?.map (·.state) = some .executing then 2 else 1

/-- The strike queue and the release stage stand as R63 to R65, R78 and R81 say. -/
abbrev OrdersOk (s : Sequencer) : Prop :=
  NumbersOk s ∧ s.queue.length ≤ 32 ∧ (∀ o ∈ s.queue.tail, o.state ≠ .executing) ∧
  (∀ o ∈ s.queue.drop s.taken, o.state = .queued ∧ o.held = none) ∧
  (∀ o ∈ s.stage, o.state = .queued ∧ o.held = none) ∧
  (s.stageState = .empty ↔ s.stage = []) ∧ (s.stageState = .filling → s.queue.length = 32) ∧
  (s.state = .running → s.queue ≠ []) ∧ (s.state = .idle → s.queue = [])

/-- The group table holds one entry for each group that has orders, with their number; the release stage holds one group
(R66, R81, R83). -/
abbrev GroupsOk (s : Sequencer) : Prop :=
  s.groups.length ≤ 33 ∧ (s.groups.map (·.id)).Nodup ∧
  (∀ g ∈ s.groups, 1 ≤ g.id ∧ g.id ≤ 255 ∧ 1 ≤ g.remaining ∧
    g.remaining = ((s.queue ++ s.stage).filter fun o => o.group = g.id).length) ∧
  (∀ o ∈ s.queue ++ s.stage, o.group = 0 ∨ ∃ g ∈ s.groups, g.id = o.group) ∧
  ∀ o ∈ s.stage, o.group ≠ 0 ∧ ∀ p ∈ s.stage, p.group = o.group

/-- An order that a line's release makes: a STRIKE, a RETURN or a FEED (R38, R41, R42). -/
def OrderKind.ofLine (k : OrderKind) : Bool := k.name = .strike || k.name = .ret || k.name = .feed

/-- A HELD release stage holds the orders of a line, one of them with a word that is PENDING or SUSPECT, and HOLD is set
(R81, R147, R148). -/
abbrev HeldOk (e : Engine) : Prop :=
  e.seq.stageState = .held → e.set.spell = .hold ∧ (∀ o ∈ e.seq.stage, o.kind.ofLine = true) ∧
    ∃ o ∈ e.seq.stage, ∃ w ∈ e.spell.words, o.word = some w.id ∧ (w.state = .pending ∨ w.state = .suspect)

/-- DEEP_OFF leaves no order, no homing of the wheel, no lookup and no flash read, and nothing under way (R182). -/
abbrev OffOk (e : Engine) : Prop :=
  e.power.state = .deepOff → e.seq.queue = [] ∧ e.seq.stage = [] ∧ e.seq.stageState = .empty ∧ e.seq.recovery = {} ∧
    e.wheel.homing = none ∧ e.selfTest = none ∧ e.power.wake = none ∧ e.power.softReset = none ∧
    e.power.entering = none ∧ e.power.startUp = none ∧ e.power.deepOff = none ∧ e.spell.lookups = [] ∧
    e.port.current = none

/-- The units of the wheel slots, the space's and the glyphs', lie in 2..8 (R46, R48, R50). -/
abbrev SlotsOk (slots : List WheelSlot) : Prop :=
  ∀ w ∈ slots, (2 ≤ w.space ∧ w.space ≤ 8) ∧ ∀ g ∈ w.entries, 2 ≤ g.units ∧ g.units ≤ 8

/-- The composition line is in order, the cursor cell index counts the cells left of the cursor, the row 0 window keeps to
the lead rule, a line is open as a whole, in LINE mode alone, and the cells of an open line have a width (R5, R7, R18, R27,
R152). -/
abbrev LineOk (e : Engine) : Prop :=
  e.comp.line.Pairwise (fun c d => c.start < d.start) ∧ e.comp.line.length ≤ 200 ∧
  e.comp.index = (e.comp.line.filter fun c => c.start < e.comp.cursor).length ∧
  e.comp.index ≤ e.display.window + 35 ∧ (e.display.window = 0 ∨ e.display.window + 4 ≤ e.comp.index) ∧
  ((∀ c ∈ e.comp.line, c.origin = .unreleased) ∨ ∀ c ∈ e.comp.line, c.origin ≠ .unreleased) ∧
  (e.set.mode = .direct → ∀ c ∈ e.comp.line, c.origin ≠ .unreleased) ∧
  ∀ c ∈ e.comp.line, c.origin = .unreleased → 0 < c.width

/-! ## Orders under way -/

/-- The sequencer starts and runs orders in RUN: it is RUNNING, with no pause pending and no fault held, and its orders stand
as they do in every run (R70, R78). -/
abbrev Engine.sequences (e : Engine) : Prop :=
  e.power.state = .run ∧ e.faults.x = none ∧ e.faults.p = none ∧ e.seq.state = .running ∧ e.seq.pausePending = false ∧
  OrdersOk e.seq

/-- The lift switches read VIEW (R96). -/
abbrev Engine.readsView (e : Engine) : Prop := e.pins.lsw1Closed = false ∧ e.pins.lsw0Closed = true

/-- The carriage sent to a position, when it is not there (R87). -/
def Carriage.sent (c : Carriage) (x : Nat) : Carriage :=
  if c.position = x then c else { c with state := .moving, target := x, use := .order, timer := some 6000 }

/-- The lift sent to a position by an order: by way of VIEW when UNKNOWN, a leg that ends at once when the switches read
VIEW (R96). -/
def Engine.liftSent (p : LiftTarget) (e : Engine) : Lift :=
  let l := e.lift
  if l.state = .held p then l
  else if l.state = .unknown ∧ e.readsView ∧ p = .view then
    { l with state := .held .view, target := .view, viaView := false, use := .order, timer := none }
  else
    { l with state := .moving, target := p, use := .order, timer := some 30000
             viaView := decide (l.state = .unknown ∧ ¬ e.readsView ∧ p ≠ .view) }

/-- The wheel stands on a fire's petal, or has been sent there by the shorter way (R90). -/
abbrev Wheel.sent (petal : Option Nat) (v w : Wheel) : Prop :=
  w.mounted = v.mounted ∧ (v.petal = petal → w.state = .settled ∧ w.petal = petal) ∧
  (v.petal ≠ petal → w.state = .rotating ∧ some w.target = petal ∧ w.timer = some 40000 ∧
    ∀ a b, v.petal = some a → petal = some b → a ≤ 95 → b ≤ 95 → w.forward = decide ((b + 96 - a) % 96 ≤ 48))

/-- The completion of the executing order (R75, R77, R78, R83): it has left the queue, the print point is its end position,
its group has one order less or closes with its DONE notice, and with the last order the sequencer is IDLE or PAUSED and
the view timer starts. What stands behind it is no LIFT, so that nothing is dropped as stale at the same event. -/
abbrev Completes (o : Order) (point : Nat) (s t : State) : Prop :=
  (∀ p ∈ t.seq.queue, p.number ≠ o.number) ∧ t.seq.printPoint = point ∧
  ((∀ p ∈ s.seq.queue.tail ++ s.seq.stage, p.kind.name ≠ .lift) → ∀ g ∈ s.seq.groups, g.id = o.group → o.group ≠ 0 →
    (1 < g.remaining → { g with remaining := g.remaining - 1 } ∈ t.seq.groups) ∧
    (g.remaining = 1 → (∀ h ∈ t.seq.groups, h.id ≠ g.id) ∧
      (s.link.tx ≠ none → s.link.notices = [] → t.raised (.done g.id g.kind
        (if g.flushed then .flushed else if g.aborted then .aborted else if g.stale then .stale else .complete)
        g.notExecuted [])))) ∧
  (s.seq.queue.tail = [] → s.seq.stage = [] → t.seq.viewTimer = some 1000000 ∧
    t.seq.state = if s.seq.pausePending then .paused else .idle)

/-- The cells of an order that has completed are ON_PAPER (R5, R75). -/
def settledCells (o : Order) (line : List Cell) : List Cell :=
  line.map fun d => if d.origin = .queued o.number then { d with origin := .onPaper o.record } else d

/-- The orders of a released line whose cells are placed, each as its kind, its targets and its group, when no order stands
ahead of them: a STRIKE for each printing cell, then the closing order; under BIDI the end nearer to the carriage comes first
(R38, R41, R42). -/
def Engine.lineOrders (kept : List Cell) (e : Engine) : List (OrderName × Nat × VPos × Nat) :=
  let printing := kept.filter fun c => c.content ≠ .space
  let starts := printing.map (·.start)
  let p := e.carriage.position
  let far := fun (a : Nat) => (a - p) + (p - a)
  let first := (printing.head?.map (·.start)).getD p
  let last := (printing.getLast?.map fun c => c.start + c.width).getD p
  let reverse := e.set.bidi && decide (far last < far first)
  let v := e.comp.vTarget + BitVec.ofNat 16 e.set.spacing
  (if reverse then starts.reverse else starts).map (fun x => (.strike, x, e.comp.vTarget, e.groupId)) ++
    [if e.set.bidi then (.feed, if reverse then first else last, v, e.groupId) else (.ret, e.set.left, v, e.groupId)]

/-- Cells one behind another from a position, with the widths they have (R18, R21). -/
def movedCells (x : Nat) : List Cell → List Cell
  | [] => []
  | c :: cs => { c with start := x } :: movedCells (x + c.width) cs

/-- A correction key on paper disposes of its target set: the STRIKE orders `out` are withdrawn, the records `recs`, oldest
first, get LIFT orders, and the cells that pass `gone` leave. `reached` holds the records that the key's position and word
test admits, those that a LIFT refers to already among them. With a record of another wheel the key is dropped with
BELL(WHEEL) (R118). Otherwise what is left of the strike queue is followed by the LIFT orders of a new CORRECTION group, by
descending position and the newest first, in the strike queue as far as there is room and in the release stage behind it
(R119, R121); groups without orders close with DONE (R83); the cursor goes to the smallest position disposed of (R122); a
word without cells leaves the word table (R123); and a cell at whose start no STRIKE of `out`, no record of `recs` and no
record of `reached` with a LIFT already stands rings BELL(NOT_REMEMBERED) (R124; log 102). -/
abbrev Disposes (i : Instr) (out : List Order) (reached recs : List Record) (gone : Cell → Bool) (s : State) : Prop :=
  let rest := s.comp.keys.tail
  let kept := s.seq.queue.filter fun o => o ∉ out
  let plain := fun (o : Order) => (o.number, o.kind, o.group, o.horizontal, o.vertical)
  let lifted := recs.reverse.insertionSort fun a b => b.horizontal ≤ a.horizontal
  let groups := s.seq.groups.filterMap fun g =>
    let n := (kept.filter fun o => o.group = g.id).length
    if n = 0 then none else some { g with remaining := n }
  let id := nextGroup (groups.map (·.id)) 255 s.seq.lastGroup
  let line := s.comp.line.filter fun c => !gone c
  let cells := s.comp.line.filter gone
  let x := (cells.map (·.start) ++ out.map (·.horizontal) ++ recs.map (·.horizontal)).min?.getD s.comp.cursor
  let words := cells.filterMap (·.word) ++ out.filterMap (·.word) ++ recs.filterMap (·.word)
  let total := kept.length + recs.length
  ((∃ r ∈ recs, s.comp.wheel ≠ some r.wheel) → ∃ t, exec i s = .next t ∧
    t.comp = { s.comp with keys := rest, composed := true } ∧
    (s.link.tx ≠ none → s.link.notices = [] → t.raised (.bell .wheel)) ∧ Keeps (.keys :: settleParts) s t) ∧
  ((∀ r ∈ recs, s.comp.wheel = some r.wheel) → ∃ t, exec i s = .next t ∧ t.comp.keys = rest ∧ t.comp.line = line ∧
    t.comp.cursor = x ∧
    t.comp.word = ((line.filter fun c => c.start < x).getLast?.bind fun c =>
      if c.start + c.width = x then c.word.bind fun w => if w ∈ words then some w else none else none) ∧
    (t.seq.queue ++ t.seq.stage).map plain = kept.map plain ++ lifted.zipIdx.map (fun p =>
      (s.seq.nextOrder + p.2, .lift (.record p.1.slot), id, p.1.horizontal, s.comp.vTarget)) ∧
    t.seq.queue.length = min 32 total ∧ t.seq.stageState = (if total ≤ 32 then .empty else .filling) ∧
    t.seq.groups = groups ++ (if recs = [] then [] else [{ id := id, kind := .correction, remaining := recs.length }]) ∧
    t.seq.lastGroup = (if recs = [] then s.seq.lastGroup else id) ∧
    (∀ w ∈ words, (∀ c ∈ line, c.word ≠ some w) → ∀ v ∈ t.spell.words, v.id ≠ w) ∧
    (s.link.tx ≠ none → s.link.notices = [] → s.seq.groups.length ≤ 10 →
      (t.raised (.bell .notRemembered) ↔ ∃ c ∈ cells, c.content ≠ .space ∧ (∀ o ∈ out, o.horizontal ≠ c.start) ∧
        (∀ r ∈ recs, r.horizontal ≠ c.start) ∧ ∀ r ∈ reached, r.horizontal = c.start →
          ∀ o ∈ s.seq.queue, o.kind ≠ .lift (.record r.slot)) ∧
      ∀ g ∈ s.seq.groups, (∀ o ∈ kept, o.group ≠ g.id) →
        t.raised (.done g.id g.kind (if g.flushed then .flushed else if g.aborted then .aborted else
          if g.stale then .stale else .complete) g.notExecuted [])) ∧
    Keeps (.ids :: .keys :: .cursor :: .line :: .word :: .words :: .port :: .window :: settleParts) s t)

/-- The correction memory one line generation on: the records three behind have left it (R110). -/
def Memory.nextLine (m : Memory) : Memory :=
  { generation := m.generation + 1, records := m.records.filter fun r => (m.generation + 1 - r.generation).toNat < 3 }

end Sys2Proof.Machine
end

