-- ==== Sys2Proof/Certificates/Slice0/Obligations.lean ====
section
/-! DEFINITION. The statements about the part. Each docstring names the rules it rests on; where a clause rests on a
choice of the model, it names the log entry. -/

set_option Elab.async false

open Sys2Proof Sys2Proof.Machine

/-- O1. For every command c, queue rest and state s with c :: rest waiting, step s is exec c on s with rest waiting.
With an empty queue a step changes nothing: no row of the table is a clock tick, so the idle step is the model's
choice (log 14). (00_scope.md, Block overview (log 14), 00_scope.md, Time (log 14)) -/
def Obligations.StepRunsFront : Prop :=
  (∀ (c : Instr) (rest : List Instr) (s : State), s.pending = c :: rest → step s = exec c { s with pending := rest }) ∧
  ∀ s : State, s.pending = [] → step s = .next s

/-- O2. For every command and every state exec answers a next state, in which the commands that wait are those that
waited. That a command whose precondition fails answers a next state too is the model's choice: an event of a channel
or timer that is not under way changes nothing (log 11), and so does a key row whose key is not at the head (log 12).
(00_scope.md, Block overview, R3, R189, 00_scope.md, Block overview (logs 11 and 12)) -/
def Obligations.EveryCommandCompletes : Prop :=
  ∀ (c : Instr) (s : State), ∃ t, exec c s = .next t ∧ t.pending = s.pending

/-- O3. After every command a lit display holds 80 cells. Column k of row 0 shows the line's cell of index S + k, S
being the window start: its glyph (7Fh as a box) with its underline, an empty cell for a plain space and past the
line's end, an underlined one for an underlined space; its mode is CURSOR at the cursor cell index, else BLINK for a
SUSPECT word, else STEADY. The cells that changed are sent in ascending row and column, and the phase when it changed.
Each mode shows as R154 says, and DCON follows the contrast. A dark display holds no cells (log 64), and the phase
goes out at the lighting too (log 71): the model's choices. (R151, R152, R153, R154, R161, R151 (log 64), R154 (log
71)) -/
def Obligations.DisplayRowZero : Prop :=
  ∀ (c : Instr) (s t : State), exec c s = .next t →
    let d := t.display
    let shown := fun (k : Nat) => t.comp.line[d.window + k]?
    let suspect := fun (x : Option Cell) => ∃ y, x = some y ∧ ∃ w ∈ t.spell.words, w.state = .suspect ∧ y.word = some w.id
    (d.lit = false → d.cells = [] ∧ d.sent = [] ∧ d.modulePhase = none ∧ t.contrastOutput = none) ∧
    (d.lit = true → d.modulePhase = some d.phaseOn ∧ t.contrastOutput = some t.set.contrast ∧
      ((∀ codes, d.override = some codes → codes.length = 40) → d.cells.length = 80) ∧
      ∀ k < 40, ∃ x, d.cells[k]? = some x ∧
        (shown k = none → x.shape = .code 0x20 ∧ x.underline = false) ∧
        (∀ y, shown k = some y →
          (y.content = .space → x.shape = .code 0x20 ∧ x.underline = false) ∧
          (y.content = .underlinedSpace → x.shape = .code 0x20 ∧ x.underline = true) ∧
          (∀ g, y.content = .glyph g → x.shape = (if g = 0x7F then .box else .code g) ∧ x.underline = y.underline)) ∧
        (x.blink = .cursor ↔ d.window + k = t.comp.index) ∧
        (x.blink = .blink ↔ d.window + k ≠ t.comp.index ∧ suspect (shown k))) ∧
    d.sent.map (fun x => (40 * x.row + x.column, x.cell)) = (List.range d.cells.length).filterMap (fun n =>
      if s.display.cells[n]? = d.cells[n]? then none else d.cells[n]?.map fun x => (n, x)) ∧
    (∀ x ∈ d.sent, x.column < 40) ∧
    d.sentPhase = (if d.modulePhase = s.display.modulePhase then none else d.modulePhase) ∧
    t.sights.length = d.cells.length ∧
    ∀ (n : Nat) (x : DisplayCell), d.cells[n]? = some x → t.sights[n]? = some (match x.blink, d.phaseOn with
      | .steady, _ => .character x.shape x.underline
      | .blink, true => .character x.shape x.underline
      | .blink, false => .character (.code 0x20) false
      | .cursor, true => .block
      | .cursor, false => .character x.shape x.underline)

/-- O4. While the override runs row 1 shows its codes, any outside 20h..7Eh as a box. Otherwise it shows the pitch,
mode, alignment, distribution, distance, spelling and wheel fields of R155 to R157 and the message area, left-aligned
in 13 columns. Every cell is steady and not underlined. BELL, WHEEL and POWER notices put their texts into the area
for 2 s unless a fault text stands; a fault puts the text of the X slot's first kind there, or of the P slot's with
the X slot empty, and stops the hold timer; emptying the record empties the area of a fault text. (R155, R156, R157,
R158, R159, R160, R28) -/
def Obligations.DisplayRowOne : Prop :=
  (∀ (c : Instr) (s t : State), exec c s = .next t → t.display.lit = true →
    let row := t.display.cells.drop 40
    let cell := fun (shape : Shape) => ({ shape := shape, underline := false, blink := .steady } : DisplayCell)
    let pitch : Option PitchClass := match t.set.pitch, readySlot t.slots t.comp.wheel with
      | .p10, _ => some .p10
      | .p12, _ => some .p12
      | .p15, _ => some .p15
      | .auto, slot => slot.map (·.pitch)
      | .ps, some w => some w.pitch
      | .ps, none => some .ps
    let far := ((t.set.right - t.comp.cursor) + (t.comp.cursor - t.set.right)) / 12
    let digit := fun (n : Nat) => byteOf (48 + n % 10)
    let suspects := ((t.comp.line.filterMap (·.word)).eraseDups.filter fun id =>
      t.spell.words.any fun w => w.id = id && w.state = .suspect).length
    let message := match t.display.message with
      | .nothing => []
      | .timed x => x
      | .fault k => k.text
    (∀ codes, t.display.override = some codes → row = codes.map fun b =>
      cell (if 0x20 ≤ b.toNat ∧ b.toNat ≤ 0x7E then .code b else .box)) ∧
    (t.display.override = none → row = List.map (fun b => cell (.code b))
      ((match pitch with
        | none => chars ['-', '-', '-']
        | some .p10 => chars ['1', '0', ' ']
        | some .p12 => chars ['1', '2', ' ']
        | some .p15 => chars ['1', '5', ' ']
        | some .ps => chars ['P', 'S', ' ']) ++ [0x20] ++
      (match t.set.mode with
        | .direct => chars ['D', 'I', 'R', ' ']
        | .line => chars ['L', 'I', 'N', 'E']) ++ [0x20] ++
      (match t.set.align with
        | .left => chars ['L']
        | .right => chars ['R']
        | .center => chars ['C']
        | .justify => chars ['J']) ++
      (match t.set.distribute with
        | .leading => chars ['L']
        | .trailing => chars ['T']
        | .spread => chars ['S']
        | .truncate => chars ['X']) ++ [0x20] ++
      [if t.set.right < t.comp.cursor then 0x2D else 0x20, if 100 ≤ far then digit (far / 100) else 0x20,
        if 10 ≤ far then digit (far / 10) else 0x20, digit far] ++ [0x20] ++
      (if t.set.spell = .off then chars ['S', 'P', '-', ' ']
        else if t.spell.dict ≠ .ready then chars ['S', 'P', '?', ' ']
        else chars ['S', 'P', ' '] ++ [if suspects ≤ 9 then digit suspects else 0x2B]) ++ [0x20] ++
      (match t.wheel.mounted with
        | none => chars ['W', '-', '-', '-']
        | some n => chars ['W'] ++ [digit (n / 100), digit (n / 10), digit n]) ++ [0x20] ++
      (message ++ List.replicate 13 0x20).take 13))) ∧
  (∀ e : Engine, e.power.state ≠ .deepOff →
    let puts := fun (n : Notice) (x : List Byte) =>
      (∀ k, e.display.message = .fault k → (e.offer n).display = e.display) ∧
      ((∀ k, e.display.message ≠ .fault k) →
        (e.offer n).display = { e.display with message := .timed x, holdTimer := some 2000000 })
    (∀ p ∈ [(Bell.approach, chars ['N', 'E', 'A', 'R', ' ', 'M', 'A', 'R', 'G', 'I', 'N']),
        (Bell.margin, chars ['A', 'T', ' ', 'M', 'A', 'R', 'G', 'I', 'N']),
        (Bell.lineFull, chars ['L', 'I', 'N', 'E', ' ', 'F', 'U', 'L', 'L']),
        (Bell.absent, chars ['N', 'O', ' ', 'C', 'H', 'A', 'R', 'A', 'C', 'T', 'E', 'R']),
        (Bell.noWheel, chars ['N', 'O', ' ', 'T', 'A', 'B', 'L', 'E']),
        (Bell.lineOpen, chars ['L', 'I', 'N', 'E', ' ', 'O', 'P', 'E', 'N']),
        (Bell.wheel, chars ['O', 'T', 'H', 'E', 'R', ' ', 'W', 'H', 'E', 'E', 'L']),
        (Bell.notRemembered, chars ['C', 'A', 'N', 'N', 'O', 'T', ' ', 'L', 'I', 'F', 'T'])],
      puts (.bell p.1) p.2) ∧
    (∀ (cause : HomingCause) (n : Nat) (required : Option Nat),
      (∀ p ∈ [(HomingOutcome.mounted, chars ['M', 'O', 'U', 'N', 'T', 'E', 'D']),
          (HomingOutcome.adopted, chars ['A', 'D', 'O', 'P', 'T', 'E', 'D']),
          (HomingOutcome.mismatch, chars ['M', 'I', 'S', 'M', 'A', 'T', 'C', 'H'])],
        puts (.wheel cause p.1 (some n) required)
          (chars ['W'] ++ [byteOf (48 + n / 100 % 10), byteOf (48 + n / 10 % 10), byteOf (48 + n % 10)] ++ chars [' '] ++
            p.2)) ∧
      ∀ code, puts (.wheel cause .failed code required) (chars ['W', 'H', 'E', 'E', 'L', ' ', 'F', 'A', 'I', 'L', 'E', 'D'])) ∧
    (∀ p ∈ [(PowerState.run, chars ['R', 'U', 'N']),
        (PowerState.standby, chars ['S', 'T', 'A', 'N', 'D', 'B', 'Y']),
        (PowerState.sleep, chars ['S', 'L', 'E', 'E', 'P'])],
      puts (.power p.1) p.2) ∧
    (∀ (slot : SlotName) (f : FaultSlot), ∃ k, (e.writeFault slot f).display.message = .fault k ∧
      (e.writeFault slot f).display.holdTimer = none ∧
      some k = match (e.writeFault slot f).faults.x, (e.writeFault slot f).faults.p with
        | some x, _ => some x.kind
        | none, p => p.map (·.kind)) ∧
    ((∃ k, e.display.message = .fault k) → e.clearFaults.display = { e.display with message := .nothing }) ∧
    ((∀ k, e.display.message ≠ .fault k) → e.clearFaults.display = e.display)) ∧
  ∀ p ∈ [(FaultKind.carriageStall, chars ['C', 'A', 'R', 'R', 'I', 'A', 'G', 'E', ' ', 'J', 'A', 'M']),
      (FaultKind.wheelStall, chars ['W', 'H', 'E', 'E', 'L', ' ', 'S', 'T', 'A', 'L', 'L']),
      (FaultKind.wheelHomeFail, chars ['W', 'H', 'E', 'E', 'L', ' ', 'N', 'O', ' ', 'H', 'O', 'M', 'E']),
      (FaultKind.platenStall, chars ['P', 'L', 'A', 'T', 'E', 'N', ' ', 'S', 'T', 'A', 'L', 'L']),
      (FaultKind.liftStall, chars ['L', 'I', 'F', 'T', ' ', 'S', 'T', 'A', 'L', 'L']),
      (FaultKind.hammerStuck, chars ['H', 'A', 'M', 'M', 'E', 'R', ' ', 'S', 'T', 'U', 'C', 'K']),
      (FaultKind.coverOpen, chars ['C', 'O', 'V', 'E', 'R', ' ', 'O', 'P', 'E', 'N']),
      (FaultKind.wheelMismatch, chars ['W', 'R', 'O', 'N', 'G', ' ', 'W', 'H', 'E', 'E', 'L']),
      (FaultKind.noWheelTable, chars ['N', 'O', ' ', 'W', 'H', 'E', 'E', 'L', ' ', 'T', 'B', 'L']),
      (FaultKind.absentPetal, chars ['N', 'O', ' ', 'P', 'E', 'T', 'A', 'L']),
      (FaultKind.liftWheel, chars ['L', 'I', 'F', 'T', ' ', 'W', 'H', 'E', 'E', 'L']),
      (FaultKind.paperOut, chars ['P', 'A', 'P', 'E', 'R', ' ', 'O', 'U', 'T']),
      (FaultKind.ribbonEnd, chars ['R', 'I', 'B', 'B', 'O', 'N', ' ', 'E', 'N', 'D']),
      (FaultKind.tapeEnd, chars ['T', 'A', 'P', 'E', ' ', 'E', 'N', 'D'])],
    p.1.text = p.2

/-- O5. At reset the power state is STARTING, the settings, the composition unit, the sequencer, the checker, the
display and the fault record have the hard reset values that their rules give, and the slots are EMPTY. Every
invariant that a step keeps holds: the settings' ranges, the capacities, the order of the strike queue and the release
stage (numbers: log 9), the group table, the composition line with its window, the units of the wheel slots, what
DEEP_OFF leaves and what a HELD stage holds. Where the rules leave it open the model's choices are logs 8, 9, 10, 63,
66. (R1, R5, R37, R44, R46, R51, R52, R86, R107, R150, R163, R178) -/
def Obligations.ResetValues : Prop :=
  let s := State.reset
  s.power.state = .starting ∧ s.power.pendingEntry = none ∧ s.power.wake = none ∧
  s.set.mode = .direct ∧ s.set.left = 120 ∧ s.set.right = 900 ∧ s.set.tabs = [] ∧ s.set.spacing = 8 ∧
  s.set.bellZone = 60 ∧ s.set.pitch = .auto ∧ s.set.align = .left ∧ s.set.distribute = .spread ∧
  s.set.bidi = false ∧ s.set.impression = 2 ∧ s.set.spell = .flag ∧ s.set.standby = 24 ∧ s.set.contrast = 8 ∧
  s.set.energy = [[600, 800, 1000], [900, 1100, 1300], [1200, 1400, 1600], [1500, 1700, 1900]] ∧
  s.comp.keys = [] ∧ s.comp.cursor = 120 ∧ s.comp.vTarget = 0 ∧ s.comp.line = [] ∧ s.comp.index = 0 ∧
  s.comp.word = none ∧ s.comp.bellRung = false ∧ s.comp.marginRelease = false ∧ s.comp.relocateH = 120 ∧
  s.comp.relocateV = 0 ∧ s.comp.wheel = none ∧ s.comp.composed = false ∧
  s.esc.current = {} ∧ s.esc.accrued = {} ∧ (∀ w ∈ s.slots, w.state = .empty) ∧ s.slots.length = 4 ∧
  s.seq.state = .stopped ∧ s.seq.queue = [] ∧ s.seq.stageState = .empty ∧ s.seq.groups = [] ∧ s.seq.lastGroup = 0 ∧
  s.seq.printPoint = 0 ∧ s.wheel.mounted = none ∧ s.memory.records = [] ∧ s.spell.words = [] ∧
  s.spell.lastWord = 255 ∧ s.spell.user = [] ∧ s.spell.lookups = [] ∧ s.spell.dict = .probing ∧
  s.display.lit = false ∧ s.display.window = 0 ∧ s.display.message = .nothing ∧ s.display.override = none ∧
  s.faults.x = none ∧ s.faults.p = none ∧ s.link.replies = [] ∧ s.link.notices = [] ∧ s.link.rx.state = .idle ∧
  SettingsOk s.set ∧ LinkOk s.link ∧ SpellOk s.spell ∧ MemoryOk s.memory ∧ OrdersOk s.seq ∧ GroupsOk s.seq ∧
  LineOk s.toEngine ∧ SlotsOk s.slots ∧ OffOk s.toEngine ∧ HeldOk s.toEngine

/-- O6. From every state HARD_RESET answers the state with every block at its hard reset value: the sensor levels, the
lift and the hammer are read from the pins (R96, R97, R99), the SENSOR notice naming no sensor is on the line, and the
header read has started (R185), with the flash device's size code read at its start (R195; log 67). The pins, the
count of open values and the commands that wait are untouched. Where the rules leave it open the model's choices are
logs 1, 63, 66, 67. (R96, R97, R99, R139, R140, R185, R187, R195) -/
def Obligations.HardResetFromAnywhere : Prop :=
  ∀ s : State, ∃ t, exec .hardReset s = .next t ∧ t.pending = s.pending ∧ t.pins = s.pins ∧ t.free = s.free ∧
    t.levels = s.pins.sensors ∧ t.hammer = { state := if s.pins.hammerHome then .ready else .stuck } ∧
    t.lift.state = (match s.pins.lsw1Closed, s.pins.lsw0Closed with
      | false, true => .held .view
      | true, false => .held .print
      | true, true => .held .correct
      | false, false => .unknown) ∧
    t.link = { tx := some ⟨⟨0x86, [0x00, s.pins.sensors.byte]⟩, false⟩ } ∧
    t.port = { current := some { address := 0, length := 15, asker := .startHeader }, timer := some 5000
               flashSize := s.pins.flashSize } ∧
    t.comp = State.reset.comp ∧ t.set = State.reset.set ∧ t.esc = State.reset.esc ∧ t.slots = State.reset.slots ∧
    t.seq = State.reset.seq ∧ t.carriage = State.reset.carriage ∧ t.wheel = State.reset.wheel ∧
    t.platen = State.reset.platen ∧ t.memory = State.reset.memory ∧ t.spell = State.reset.spell ∧
    t.display = State.reset.display ∧ t.faults = State.reset.faults ∧ t.selfTest = none ∧
    t.power = State.reset.power

/-- O7. If the settings lie in the ranges that R5, R23 to R25, R51, R52, R161 and R180 give, every step that answers a
next state keeps them there: the margins at least 120 apart within travel, at most 16 tab stops in ascending order,
and so on. (R5, R23, R24, R25, R51, R52, R161, R180, R175) -/
def Obligations.SettingsKept : Prop :=
  ∀ s t : State, SettingsOk s.set → step s = .next t → SettingsOk t.set

/-- O8. If at most 8 replies wait, the notice queue holds at most 15 notices or 16 with OVERFLOW as the newest, and an
idle line has nothing waiting, then this holds after every step. (R189, R190, R191) -/
def Obligations.LinkKept : Prop :=
  ∀ s t : State, LinkOk s.link → step s = .next t → LinkOk t.link

/-- O9. Every step keeps at most 32 words with distinct ids, 4 lookups and 64 distinct user words, and at most 512
correction records in distinct slots. (R106, R107, R131, R136, R143) -/
def Obligations.TablesKept : Prop :=
  ∀ s t : State, SpellOk s.spell → MemoryOk s.memory → step s = .next t → SpellOk t.spell ∧ MemoryOk t.memory

/-- O10. Every step keeps this: at most 32 orders stand in the strike queue, only the head may be EXECUTING, only the
head (or the second behind an EXECUTING head) may be PREPARED or hold a failure, orders of the release stage are
QUEUED, the stage is EMPTY exactly when it holds no order and FILLING only against a full queue, RUNNING means orders
and IDLE none; and no two orders carry one number, which is the model's own (log 9). It is kept together with what
DEEP_OFF leaves: no order, no wheel homing, no lookup, no flash read and nothing under way. (R63, R65, R68, R78, R81,
R64 (log 9), R182) -/
def Obligations.OrdersKept : Prop :=
  ∀ s t : State, OffOk s.toEngine → OrdersOk s.seq → step s = .next t → OffOk t.toEngine ∧ OrdersOk t.seq

/-- O11. Given the order of the strike queue and the release stage, every step keeps the group table: at most 33
groups with distinct ids in 1..255, each with at least one order, its remaining number being the number of its orders
in the strike queue and the release stage; every order of a group has its entry; and the orders of the release stage
belong to one group. (R66, R81, R83) -/
def Obligations.GroupsKept : Prop :=
  ∀ s t : State, OrdersOk s.seq → GroupsOk s.seq → step s = .next t → GroupsOk t.seq

/-- O12. Every step keeps the composition line's start positions strictly ascending, at most 200 cells, the cursor
cell index equal to the number of cells that start left of the cursor, the lead rule of the row 0 window, and a line
of which either every cell or none is UNRELEASED, none in DIRECT mode, and in which an UNRELEASED cell has a width
above 0. The units of the wheel slots, which give the widths under PS, stay in 2..8. (R5, R7, R18, R27, R46, R50,
R152) -/
def Obligations.LineKept : Prop :=
  ∀ s t : State, LineOk s.toEngine → SlotsOk s.slots → step s = .next t → LineOk t.toEngine ∧ SlotsOk t.slots

/-- O13. No key taken, no event of the sequencer, the channels, the sensors or a timer changes a setting or the user
word list while the part is not on its way to DEEP_OFF: only requests and resets do. The wheel slots are changed by
them only at the end of a flash read. (R23, R24, R25, R49, R52, R136) -/
def Obligations.EventsKeepSettings : Prop :=
  ∀ (c : Instr) (s t : State), requestFrame c = none → (∀ b, c ≠ .receiveByte b) → c ≠ .hardReset →
    s.power.deepOff = none → exec c s = .next t →
    t.set = s.set ∧ t.spell.user = s.spell.user ∧
    ((∀ bytes code, c ≠ .flashReadEnd bytes code) → c ≠ .flashReadTimeout → t.slots = s.slots)

/-- O14. For every well-formed request and every frame that spells it (R192, R193, layouts), the byte that completes
the frame has the effect of the request on the part with its receiver IDLE: the length byte 0 for a request without a
payload, the last payload byte otherwise. Where the rules leave it open the model's choices are log 7. (R187, R189,
R192, R193, 11_the_link_requests_notices_and_layouts.md, Layouts) -/
def Obligations.RequestByItsFrame : Prop :=
  ∀ (i : Instr) (f : Frame) (s : State), i.wellFormed = true → requestFrame i = some f → s.link.rx.typ = f.typ →
    (f.payload = [] → s.link.rx.state = .typeTaken → exec (.receiveByte 0) s = exec i s.receiverIdle) ∧
    (∀ front last, f.payload = front ++ [last] → s.link.rx.state = .payload → s.link.rx.bytes = front →
      s.link.rx.length = f.payload.length → exec (.receiveByte last) s = exec i s.receiverIdle)

/-- O15. In IDLE a byte is kept as the type, with the gap timer started at 3 ms. In TYPE_TAKEN a length 1..64 leads to
PAYLOAD, and one above 64 to HUNT with LINK(LENGTH). In PAYLOAD a byte that does not complete the frame is kept. In
HUNT a byte is discarded. An errored byte outside HUNT leads to HUNT with LINK(BYTE_ERROR), an idle line leads from
HUNT to IDLE, and the gap timer's expiry to IDLE with LINK(TIMEOUT). Nothing else of the part changes. (R187, R188) -/
def Obligations.ReceiverStates : Prop :=
  ∀ (s : State) (b : Byte),
    (s.link.rx.state = .idle → ∃ t, exec (.receiveByte b) s = .next t ∧ Keeps [.receiver] s t ∧
      t.link.rx = { state := .typeTaken, typ := b, length := 0, bytes := [], gapTimer := some 3000 }) ∧
    (s.link.rx.state = .typeTaken → 1 ≤ b.toNat → b.toNat ≤ 64 → ∃ t, exec (.receiveByte b) s = .next t ∧
      Keeps [.receiver] s t ∧
      t.link.rx = { s.link.rx with state := .payload, length := b.toNat, gapTimer := some 3000 }) ∧
    (s.link.rx.state = .typeTaken → 64 < b.toNat → s.power.state ≠ .deepOff →
      ∃ t, exec (.receiveByte b) s = .next t ∧ Keeps [.receiver, .outgoing] s t ∧
      t.link = Link.noticed (.link .length) { s.link with rx := { state := .hunt } }) ∧
    (s.link.rx.state = .payload → s.link.rx.bytes.length + 1 ≠ s.link.rx.length →
      ∃ t, exec (.receiveByte b) s = .next t ∧ Keeps [.receiver] s t ∧
      t.link.rx = { s.link.rx with bytes := s.link.rx.bytes ++ [b], gapTimer := some 3000 }) ∧
    (s.link.rx.state = .hunt → ∃ t, exec (.receiveByte b) s = .next t ∧ Keeps [] s t) ∧
    (s.link.rx.state ≠ .hunt → s.power.state ≠ .deepOff → ∃ t, exec .byteError s = .next t ∧
      Keeps [.receiver, .outgoing] s t ∧
      t.link = Link.noticed (.link .byteError) { s.link with rx := { state := .hunt } }) ∧
    (s.link.rx.state = .hunt → ∃ t, exec .byteError s = .next t ∧ Keeps [] s t) ∧
    (s.link.rx.state = .hunt → ∃ t, exec .huntIdleTimeout s = .next t ∧ Keeps [.receiver] s t ∧ t.link.rx = {}) ∧
    (s.link.rx.gapTimer.isSome = true → s.power.state ≠ .deepOff → ∃ t, exec .gapTimerExpiry s = .next t ∧
      Keeps [.receiver, .outgoing] s t ∧ t.link = Link.noticed (.link .timeout) { s.link with rx := {} })

/-- O16. At the end of a frame that is not the OK reply of DEEP_OFF, the oldest reply of the reply list starts; with
the list empty the oldest notice starts; with both empty the line is idle. Nothing else changes. The notice queue
takes an offered notice thus: behind an OVERFLOW it is dropped and the count rises by one, stopping at 255; into fewer
than 15 entries it joins as the newest; at 15 entries OVERFLOW joins as the 16th with a count of 1 in its place.
(R190, R191) -/
def Obligations.OutgoingLine : Prop :=
  ∀ (s : State) (f : Outgoing) (n : Notice) (q : List Notice),
    (s.link.tx = some f → f.closing = false → ∃ t, exec .transmitFrameEnd s = .next t ∧ Keeps [.outgoing] s t ∧
      (match s.link.replies, s.link.notices with
        | r :: rest, ns => t.link.tx = some r ∧ t.link.replies = rest ∧ t.link.notices = ns
        | [], n :: ns => t.link.tx = some ⟨n.frame, false⟩ ∧ t.link.replies = [] ∧ t.link.notices = ns
        | [], [] => t.link.tx = none ∧ t.link.replies = [] ∧ t.link.notices = [])) ∧
    (∀ k, takeNotice n (q ++ [.overflow k]) = q ++ [.overflow (min 255 (k + 1))]) ∧
    ((∀ k, q.getLast? ≠ some (.overflow k)) → q.length < 15 → takeNotice n q = q ++ [n]) ∧
    ((∀ k, q.getLast? ≠ some (.overflow k)) → q.length = 15 → takeNotice n q = q ++ [.overflow 1])

/-- O17. With 8 replies waiting, a request frame outside DEEP_OFF has no effect but LINK(OVERRUN). In DEEP_OFF, with
room in the list, every request but STATUS and WAKE is refused STATE, KEY with its count of 0, and nothing else
changes. In every power state, with room, a frame whose type names no request is answered UNKNOWN alone: with its type
plus 40h for 01h..3Fh, and with 40h otherwise. Where the rules leave it open the model's choices are logs 18, 19.
(R182, R189, R192) -/
def Obligations.OverrunAndOff : Prop :=
  (∀ (i : Instr) (f : Frame) (s : State), i.wellFormed = true → requestFrame i = some f →
    (s.link.replies.length = 8 → s.power.state ≠ .deepOff → ∃ t, exec i s = .next t ∧ Keeps [.outgoing] s t ∧
      t.link = s.link.noticed (.link .overrun)) ∧
    (s.link.replies.length < 8 → s.power.state = .deepOff → i ≠ .status → i ≠ .statusClearAccrued → i ≠ .wake →
      (∀ typ, i ≠ .unknownFrame typ) → ∃ t, exec i s = .next t ∧ Keeps [.outgoing] s t ∧
      t.link = s.link.replied (f.typ + 0x40) (if f.typ = 0x01 then [0x04, 0x00] else [0x04]))) ∧
  ∀ (s : State) (typ : Byte), Instr.wellFormed (.unknownFrame typ) = true → s.link.replies.length < 8 →
    ∃ t, exec (.unknownFrame typ) s = .next t ∧ Keeps [.outgoing] s t ∧
      t.link = s.link.replied (if 1 ≤ typ.toNat ∧ typ.toNat ≤ 0x3F then typ + 0x40 else 0x40) [0x08]

/-- O18. Each listed code sets its value with reply OK and changes nothing else; any other code is refused MALFORMED,
and the setting is unchanged. SPACING takes 2..6 half lines as 8, 12, 16, 20 and 24 steps. IMPRESSION is clamped into
1..3, BELL_ZONE into 0..240, CONTRAST into 0..15 and STANDBY_TIMER at 255 units, with CLAMPED when clamping changed
the value and OK otherwise. A standby timer that counts starts again at n times 5 s, and stops for n = 0; one that
does not count stays stopped. Nothing else changes. ENERGY: for a class 0..3 and a setting 1..3 the on-time is clamped
into 400..2000 and stored for them alone, with OK or CLAMPED; another class or setting is refused MALFORMED with the
table unchanged. Where the rules leave it open the model's choices are log 58. (R25, R37, R51, R52, R161, R180, R193) -/
def Obligations.PlainSettings : Prop :=
  (∀ s : State, s.hears →
    (∀ p ∈ [((0 : Byte), Align.left), (1, .right), (2, .center), (3, .justify)],
      SetAnswered (.setAlign p.1) s 0x00 { s.set with align := p.2 }) ∧
    (∀ v : Byte, 3 < v.toNat → SetAnswered (.setAlign v) s 0x07 s.set) ∧
    (∀ p ∈ [((0 : Byte), Distribute.leading), (1, .trailing), (2, .spread), (3, .truncate)],
      SetAnswered (.setDistribute p.1) s 0x00 { s.set with distribute := p.2 }) ∧
    (∀ v : Byte, 3 < v.toNat → SetAnswered (.setDistribute v) s 0x07 s.set) ∧
    (∀ p ∈ [((0 : Byte), false), (1, true)], SetAnswered (.setBidi p.1) s 0x00 { s.set with bidi := p.2 }) ∧
    (∀ v : Byte, 1 < v.toNat → SetAnswered (.setBidi v) s 0x07 s.set) ∧
    (∀ p ∈ [((2 : Byte), 8), (3, 12), (4, 16), (5, 20), (6, 24)],
      SetAnswered (.setSpacing p.1) s 0x00 { s.set with spacing := p.2 }) ∧
    (∀ v : Byte, v.toNat < 2 ∨ 6 < v.toNat → SetAnswered (.setSpacing v) s 0x07 s.set)) ∧
  (∀ (s : State) (v : Byte) (p : Half), s.hears →
    SetAnswered (.setImpression v) s (if 1 ≤ v.toNat ∧ v.toNat ≤ 3 then 0x00 else 0x01)
      { s.set with impression := max 1 (min 3 v.toNat) } ∧
    SetAnswered (.setBellZone p) s (if p.toNat ≤ 240 then 0x00 else 0x01)
      { s.set with bellZone := min 240 p.toNat } ∧
    SetAnswered (.setContrast v) s (if v.toNat ≤ 15 then 0x00 else 0x01)
      { s.set with contrast := min 15 v.toNat } ∧
    ∃ t, exec (.setStandbyTimer p) s = .next t ∧ Keeps [.outgoing, .settings, .standbyTimer] s t ∧
      t.link = s.link.replied 0x42 [if p.toNat ≤ 255 then 0x00 else 0x01] ∧
      t.set = { s.set with standby := min 255 p.toNat } ∧ t.power.conditions = s.power.conditions ∧
      (s.power.timer = none → t.power.timer = none) ∧
      (s.power.timer ≠ none → t.power.timer =
        if p.toNat = 0 then none else some (min 255 p.toNat * 5000000))) ∧
  ∀ (s : State) (cls setting : Byte) (p : Half), s.hears → SettingsOk s.set →
    (3 < cls.toNat ∨ setting = 0 ∨ 3 < setting.toNat → SetAnswered (.setEnergy cls setting p) s 0x07 s.set) ∧
    (cls.toNat ≤ 3 → 1 ≤ setting.toNat → setting.toNat ≤ 3 → ∃ table : List (List Nat),
      SetAnswered (.setEnergy cls setting p) s (if 400 ≤ p.toNat ∧ p.toNat ≤ 2000 then 0x00 else 0x01)
        { s.set with energy := table } ∧
      (table.getD cls.toNat []).getD (setting.toNat - 1) 0 = max 400 (min 2000 p.toNat) ∧
      ∀ c k : Nat, c ≠ cls.toNat ∨ k ≠ setting.toNat - 1 →
        (table.getD c []).getD k 0 = (s.set.energy.getD c []).getD k 0)

/-- O19. The left margin is clamped into 0..1599 and then to at most the right margin minus 120, the right margin into
0..1599 and then to at least the left margin plus 120. The reply is CLAMPED when clamping changed the value and OK
otherwise. Nothing else changes: not the cursor, the line or the bell-rung flag. TAB_SET clamps into 0..1599; a stop
that is in the list leaves it as it is, a seventeenth is refused FULL, and any other is inserted in order, with reply
OK or CLAMPED. TAB_CLEAR removes a stop that is in the list with OK, and replies ABSENT otherwise. TAB_CLEAR_ALL
empties the list. (R23, R24, R193) -/
def Obligations.MarginsAndTabs : Prop :=
  (∀ (s : State) (p : Half), s.hears → SettingsOk s.set →
    SetAnswered (.setLeftMargin p) s
      (if p.toNat ≤ 1599 ∧ p.toNat ≤ s.set.right - 120 then 0x00 else 0x01)
      { s.set with left := min (min 1599 p.toNat) (s.set.right - 120) } ∧
    SetAnswered (.setRightMargin p) s
      (if p.toNat ≤ 1599 ∧ s.set.left + 120 ≤ p.toNat then 0x00 else 0x01)
      { s.set with right := max (min 1599 p.toNat) (s.set.left + 120) }) ∧
  ∀ (s : State) (p : Half), s.hears → s.set.tabs.Pairwise (· < ·) →
    let x := min 1599 p.toNat
    let status : Byte := if p.toNat ≤ 1599 then 0x00 else 0x01
    (x ∈ s.set.tabs → SetAnswered (.tabSet p) s status s.set) ∧
    (x ∉ s.set.tabs → 16 ≤ s.set.tabs.length → SetAnswered (.tabSet p) s 0x03 s.set) ∧
    (x ∉ s.set.tabs → s.set.tabs.length < 16 → SetAnswered (.tabSet p) s status
      { s.set with tabs := s.set.tabs.filter (fun t => t < x) ++ [x] ++ s.set.tabs.filter (fun t => x < t) }) ∧
    (p.toNat ∈ s.set.tabs → SetAnswered (.tabClear p) s 0x00
      { s.set with tabs := s.set.tabs.filter fun t => t ≠ p.toNat }) ∧
    (p.toNat ∉ s.set.tabs → SetAnswered (.tabClear p) s 0x05 s.set) ∧
    SetAnswered .tabClearAll s 0x00 { s.set with tabs := [] }

/-- O20. MODE is refused BUSY while the composition line holds a cell or the release stage is not EMPTY, and changes
otherwise. PITCH with PS is refused MISMATCH when the composition wheel's READY slot has a fixed class; every other
listed pitch is taken. Unlisted codes are MALFORMED, for MODE also where a listed code would be BUSY (the model's
choice, log 19). SPELL: a listed code sets the spelling setting with reply OK; any other is MALFORMED and changes
nothing. A HELD release stage is not HELD any more once the setting is OFF or FLAG. (R25, R28, R134, R148, R193) -/
def Obligations.ModePitchSpell : Prop :=
  (∀ s : State, s.hears →
    (∀ p ∈ [((0 : Byte), Mode.direct), (1, .line)],
      (s.comp.line = [] → s.seq.stageState = .empty → SetAnswered (.setMode p.1) s 0x00 { s.set with mode := p.2 }) ∧
      (s.comp.line ≠ [] ∨ s.seq.stageState ≠ .empty → SetAnswered (.setMode p.1) s 0x02 s.set)) ∧
    (∀ v : Byte, 1 < v.toNat → SetAnswered (.setMode v) s 0x07 s.set) ∧
    (∀ p ∈ [((0 : Byte), Pitch.auto), (1, .p10), (2, .p12), (3, .p15)],
      SetAnswered (.setPitch p.1) s 0x00 { s.set with pitch := p.2 }) ∧
    (∀ w, readySlot s.slots s.comp.wheel = some w → w.pitch ≠ .ps → SetAnswered (.setPitch 4) s 0x06 s.set) ∧
    ((∀ w, readySlot s.slots s.comp.wheel = some w → w.pitch = .ps) →
      SetAnswered (.setPitch 4) s 0x00 { s.set with pitch := .ps }) ∧
    (∀ v : Byte, 4 < v.toNat → SetAnswered (.setPitch v) s 0x07 s.set)) ∧
  ∀ s : State, s.hears →
    (∀ p ∈ [((0 : Byte), SpellSetting.off), (1, .flag), (2, .hold)], ∃ t, exec (.setSpell p.1) s = .next t ∧
      t.set = { s.set with spell := p.2 } ∧ t.answered 0x42 [0x00] ∧
      (s.seq.stageState = .held → p.2 ≠ .hold → t.seq.stageState ≠ .held) ∧
      Keeps (.settings :: .openValues :: settleParts) s t) ∧
    (∀ v : Byte, 2 < v.toNat → SetAnswered (.setSpell v) s 0x07 s.set)

/-- O21. With valid codes the first k entries join the tail of the key queue, k being the room left of 64, with reply
OK or FULL and k; a join cancels a pending entry. With an invalid code nothing joins and the reply is MALFORMED with
0. In STANDBY and SLEEP a wake is in progress afterwards unless a re-homing runs, for k = 0 and for an invalid code
too (the latter is the model's choice). In RUN the entry into STANDBY or SLEEP whose lift moves is given up by an
invalid code as by any other KEY request, and the part stays in RUN. In RUN and STARTING an invalid code changes
nothing else, and nothing at all but the link when nothing is left to settle. Where the rules leave it open the
model's choices are logs 18, 90. (R1, R181, R183, R189) -/
def Obligations.KeyRequest : Prop :=
  ∀ (s : State) (entries : List KeyBytes), s.hears → 1 ≤ entries.length → entries.length ≤ 16 →
    let valid := ∀ k ∈ entries, (1 ≤ k.code.toNat ∧ k.code.toNat ≤ 0x0D) ∨ (0x20 ≤ k.code.toNat ∧ k.code.toNat ≤ 0x7F)
    let k := min entries.length (64 - s.comp.keys.length)
    (valid → ∃ t, exec (.key entries) s = .next t ∧
      t.comp.keys = s.comp.keys ++ (entries.take k).map (fun b =>
        { code := b.code, bold := b.attributes.getLsbD 0, underline := b.attributes.getLsbD 1 }) ∧
      t.answered 0x41 [if k = entries.length then 0x00 else 0x03, byteOf k] ∧
      (1 ≤ k → t.power.pendingEntry = none ∧ (s.power.state = .run → t.power.entering = none)) ∧
      (s.power.state = .standby ∨ s.power.state = .sleep → s.power.softReset = none → t.power.wake.isSome = true) ∧
      (s.power.state = .run ∨ s.power.state = .starting → Keeps (.keys :: .openValues :: settleParts) s t)) ∧
    (¬ valid → ∃ t, exec (.key entries) s = .next t ∧ t.comp.keys = s.comp.keys ∧ t.answered 0x41 [0x07, 0x00] ∧
      (s.power.state = .standby ∨ s.power.state = .sleep → s.power.softReset = none → t.power.wake.isSome = true) ∧
      (s.power.state = .run → s.power.entering ≠ none →
        t.power.entering = none ∧ t.power.pendingEntry = none ∧ t.power.state = .run) ∧
      (s.power.state = .run ∨ s.power.state = .starting → Keeps (.openValues :: settleParts) s t ∧
        (s.power.entering = none → s.settle = s.toEngine → Keeps [.outgoing] s t)))

/-- O22. In STARTING piece 0 is BUSY. Otherwise a slot above 3, a wheel id 0 or 255 or an unknown pitch class is
MALFORMED; a READY slot of the composition or mounted wheel with orders standing is BUSY; and any other piece makes
the slot LOADING with the new header, no glyph entry and piece 1 expected, the space units clamped into 2..8 with
CLAMPED when that changed them. A refusal changes no slot. A LOADING slot that meets the piece it expects stores its 8
entries, with a petal above 95 as ABSENT, units clamped into 2..8 and classes into 0..3, and expects the next; piece
12 makes it READY with 95 entries, and with its underline code if that is a glyph whose entry has a petal. The reply
is CLAMPED when units or a class were clamped and OK otherwise; the eighth entry of piece 12 is ignored. Another index
makes the slot EMPTY with MALFORMED. A READY or EMPTY slot refuses every piece MALFORMED unchanged. What an
EMPTY slot holds besides its state is the model's choice (log 66). Where the rules leave it open the model's choices
are logs 19, 66. (R46, R49, R50) -/
def Obligations.WheelTableLoads : Prop :=
  (∀ (s : State) (slot wheel cls space under : Byte), s.hears →
    let answer := fun (status : Byte) (slots : List WheelSlot) =>
      ∃ t, exec (.wheelTablePiece0 slot wheel cls space under) s = .next t ∧ t.slots = slots ∧
        t.answered 0x44 [status] ∧ Keeps (.slots :: .openValues :: settleParts) s t
    let old := s.slots.getD slot.toNat {}
    let inUse := old.state = .ready ∧ (s.comp.wheel = some old.id ∨ s.wheel.mounted = some old.id) ∧
      (s.seq.queue ≠ [] ∨ s.seq.stage ≠ [])
    (s.power.state = .starting → answer 0x02 s.slots) ∧
    (s.power.state ≠ .starting →
      (3 < slot.toNat ∨ wheel = 0 ∨ wheel = 255 ∨ cls ∉ [(0x0A : Byte), 0x0C, 0x0F, 0x00] → answer 0x07 s.slots) ∧
      (slot.toNat ≤ 3 → wheel ≠ 0 → wheel ≠ 255 →
        ∀ p ∈ [((0x0A : Byte), PitchClass.p10), (0x0C, .p12), (0x0F, .p15), (0x00, .ps)], cls = p.1 →
        (inUse → answer 0x02 s.slots) ∧
        (¬ inUse → answer (if 2 ≤ space.toNat ∧ space.toNat ≤ 8 then 0x00 else 0x01)
          (s.slots.set slot.toNat { state := .loading 1, id := wheel.toNat, pitch := p.2
                                    space := max 2 (min 8 space.toNat), underline := some under, entries := [] }))))) ∧
  ∀ (s : State) (slot piece : Byte) (entries : List GlyphBytes), s.hears → s.power.state ≠ .starting →
    slot.toNat ≤ 3 → piece ≠ 0 → entries.length = 8 →
    let answer := fun (status : Byte) (slots : List WheelSlot) =>
      ∃ t, exec (.wheelTablePiece slot piece entries) s = .next t ∧ t.slots = slots ∧
        t.answered 0x44 [status] ∧ Keeps (.slots :: .openValues :: settleParts) s t
    let old := s.slots.getD slot.toNat {}
    let stored := old.entries ++ entries.map fun b =>
      { petal := if b.petal.toNat ≤ 95 then some b.petal.toNat else none
        units := max 2 (min 8 b.units.toNat), cls := min 3 b.cls.toNat }
    let kept := if piece = 12 then entries.take 7 else entries
    let status : Byte :=
      if ∃ b ∈ kept, b.units.toNat < 2 ∨ 8 < b.units.toNat ∨ 3 < b.cls.toNat then 0x01 else 0x00
    let under : Byte → Option Byte := fun c =>
      if 0x21 ≤ c.toNat ∧ c.toNat ≤ 0x7F ∧ (((stored.take 95)[c.toNat - 0x21]?).bind (·.petal)).isSome = true then some c
      else none
    (old.state = .loading piece.toNat → piece.toNat < 12 → answer status
      (s.slots.set slot.toNat { old with state := .loading (piece.toNat + 1), entries := stored })) ∧
    (old.state = .loading 12 → piece = 12 → answer status (s.slots.set slot.toNat
      { old with state := .ready, entries := stored.take 95, underline := old.underline.bind under })) ∧
    (∀ next, old.state = .loading next → next ≤ 12 → next ≠ piece.toNat →
      answer 0x07 (s.slots.set slot.toNat {})) ∧
    (old.state = .ready ∨ old.state = .empty → answer 0x07 s.slots)

/-- O23. Expected id 255 is MALFORMED, STARTING is BUSY, and so are a held fault, a release stage that is not EMPTY
and a full strike queue. An accepted request appends a WHEEL_CHANGE order at 800 with a new group, replies OK with the
group id, sets the composition wheel to an expected id 1..254 at once, and in STANDBY and SLEEP starts a wake. Where
the rules leave it open the model's choices are log 19. (R58, R66, R183) -/
def Obligations.WheelChangeRequest : Prop :=
  ∀ (s : State) (x : Byte), s.hears →
    let refused := fun (status : Byte) => ∃ t, exec (.wheelChange x) s = .next t ∧ t.answered 0x45 [status] ∧
      Keeps (.openValues :: settleParts) s t
    let busy := s.faults.x ≠ none ∨ s.faults.p ≠ none ∨ s.seq.stageState ≠ .empty ∨ 32 ≤ s.seq.queue.length
    (x = 255 → refused 0x07) ∧
    (x ≠ 255 → s.power.state = .starting → refused 0x02) ∧
    (x ≠ 255 → s.power.state ≠ .starting → busy → refused 0x02) ∧
    (x ≠ 255 → s.power.state ≠ .starting → ¬ busy → NumbersOk s.seq → s.seq.stage = [] →
      ∃ t, exec (.wheelChange x) s = .next t ∧
      t.answered 0x45 [0x00, byteOf s.groupId] ∧ t.seq.lastGroup = s.groupId ∧
      t.comp.wheel = (if x = 0 then s.comp.wheel else some x.toNat) ∧
      (∃ o, t.seq.queue.getLast? = some o ∧ o.number = s.seq.nextOrder ∧ o.kind = .wheelChange x.toNat ∧
        o.group = s.groupId ∧ o.horizontal = 800) ∧
      (s.power.state = .standby ∨ s.power.state = .sleep → s.power.softReset = none → t.power.wake.isSome = true) ∧
      (s.power.state = .run → Keeps (.compWheel :: .ids :: .openValues :: settleParts) s t))

/-- O24. With at most 33 open groups, the next group id lies in 1..255, no open group holds it, and every id passed
over, counting from the last id given by one and from 255 to 1, is held. (R66) -/
def Obligations.GroupIds : Prop :=
  ∀ e : Engine, e.seq.groups.length ≤ 33 →
    1 ≤ e.groupId ∧ e.groupId ≤ 255 ∧ (∀ g ∈ e.seq.groups, g.id ≠ e.groupId) ∧
    ∃ n : Nat, n ≤ 33 ∧ e.groupId = (e.seq.lastGroup + n) % 255 + 1 ∧
      ∀ k < n, ∃ g ∈ e.seq.groups, g.id = (e.seq.lastGroup + k) % 255 + 1

/-- O25. A piece above 24 is MALFORMED. Piece 0, or a piece p with 8p below the number n of cells, is OK with n, p,
the cursor cell index, the number of cells in the piece and the cells from 8p on, each as 6 bytes: its start position
in two, its width, its content, its attributes, origin and marks, and its word id. Any other piece is ABSENT. Only the
reply joins the link. (R194) -/
def Obligations.ReadLineReply : Prop :=
  ∀ (s : State) (piece : Byte), s.hears →
    let p := piece.toNat
    let n := s.comp.line.length
    let cells := (s.comp.line.drop (8 * p)).take 8
    let sixBytes := fun (c : Cell) => [byteOf (c.start / 256), byteOf c.start, byteOf c.width,
      (match c.content with
        | .glyph g => g
        | .space => 0x20
        | .underlinedSpace => 0x00),
      byteOf ((if c.bold then 1 else 0) + (if c.underline then 2 else 0) +
        (match c.origin with
          | .queued _ => 0
          | .onPaper none => 4
          | .onPaper (some _) => 4 + 32
          | .unreleased => 8) + if c.word.isSome then 16 else 0),
      c.word.getD 0]
    let answer := fun (payload : List Byte) => ∃ t, exec (.readLine piece) s = .next t ∧
      t.link = s.link.replied 0x46 payload ∧ Keeps [.outgoing] s t
    (24 < p → answer [0x07]) ∧
    (p ≤ 24 → p = 0 ∨ 8 * p < n →
      answer ([0x00, byteOf n, piece, byteOf s.comp.index, byteOf cells.length] ++ cells.flatMap sixBytes)) ∧
    (p ≤ 24 → p ≠ 0 → n ≤ 8 * p → answer [0x05])

/-- O26. When the release stage is HELD the reply is OK and the stage becomes FILLING: its orders join the tail of the
strike queue in their order as far as there is room (R81), so that it is EMPTY once every order has joined at the same
event. Only a LIFT whose record is gone leaves the queue at this event (R68). When it is EMPTY or FILLING the reply is
STATE. No word changes its state. Where the rules leave it open the model's choices are log 19. (R149, R81, R68) -/
def Obligations.ReleaseRequest : Prop :=
  ∀ s : State, s.hears →
    (s.seq.stageState = .held → ∃ t, exec .release s = .next t ∧ t.answered 0x47 [0x00] ∧
      (t.seq.stageState = .filling ∨ (t.seq.stageState = .empty ∧ t.seq.stage = [])) ∧
      (OrdersOk s.seq → (∀ o ∈ s.seq.queue ++ s.seq.stage, o.kind.name ≠ .lift) →
        (t.seq.queue ++ t.seq.stage).map (·.number) = (s.seq.queue ++ s.seq.stage).map (·.number) ∧
        t.seq.queue.length = min 32 (s.seq.queue.length + s.seq.stage.length)) ∧
      Keeps (.openValues :: settleParts) s t) ∧
    (s.seq.stageState ≠ .held → ∃ t, exec .release s = .next t ∧ t.answered 0x47 [0x04] ∧
      Keeps (.openValues :: settleParts) s t ∧ (s.settle = s.toEngine → Keeps [.outgoing] s t))

/-- O27. When the word table holds an entry with the id in state SUSPECT, that entry becomes ACCEPTED with reply OK,
and no other entry and no user word changes. In every other case the reply is ABSENT and the table is unchanged.
(R138) -/
def Obligations.AcceptWord : Prop :=
  ∀ (s : State) (id : Byte), s.hears → SpellOk s.spell →
    (∀ before w after, s.spell.words = before ++ w :: after → w.id = id → w.state = .suspect →
      ∃ t, exec (.accept id) s = .next t ∧ t.answered 0x48 [0x00] ∧
      t.spell = { s.spell with words := before ++ { w with state := .accepted } :: after } ∧
      Keeps (.words :: .openValues :: settleParts) s t) ∧
    ((∀ w ∈ s.spell.words, w.id = id → w.state ≠ .suspect) → ∃ t, exec (.accept id) s = .next t ∧
      t.answered 0x48 [0x05] ∧ Keeps (.openValues :: settleParts) s t ∧
      (s.settle = s.toEngine → Keeps [.outgoing] s t))

/-- O28. A..Z and a..z fold to 1..26 and the apostrophe to 27; a word folds to its letter codes without the
apostrophes at its ends, and any other code in it, or a length outside 2..24, is MALFORMED. ADD_WORD joins a new
word at the end, is FULL at 64 words, and leaves the list for a word in it; in both OK cases every SUSPECT entry
with its letters becomes ACCEPTED. REMOVE_WORD takes a word out and keeps the order of the rest, and is ABSENT for a
word not in it. A close, here by TAB at the right margin, leaves an entry that is not OPEN. For an OPEN one it takes
the first run with a cell at or after the entry's start, or else the last, keeps up to 24 of its folded letters
without the apostrophes at its ends, the overlength mark and the run's start, and makes it SKIPPED (spelling OFF,
under 2 or over 24 letters, a digit that touches the run), CLEAN (in the user list), UNCHECKED (no READY dictionary,
4 lookups) or PENDING, with a lookup that joins and, when alone, starts its index read. An empty run is SKIPPED. A
word that opens gets the next id and the newest place; an older entry with its id, or the oldest of 32, leaves with
its lookup. An edited word is OPEN in the newest place with the next epoch and no waiting lookup, or gets a fresh
entry. Where the rules leave it open the model's choices are log 81. (R129, R130, R131, R132, R133, R135, R136,
R137, R143, R144) -/
def Obligations.UserWordList : Prop :=
  ((∀ g : Byte, letterCode g = if 0x41 ≤ g.toNat ∧ g.toNat ≤ 0x5A then some (g.toNat - 0x40)
      else if 0x61 ≤ g.toNat ∧ g.toNat ≤ 0x7A then some (g.toNat - 0x60)
      else if g = 0x27 then some 27 else none) ∧
    (∀ glyphs : List Byte, (∃ g ∈ glyphs, letterCode g = none) → foldRequest glyphs = none) ∧
    ∀ (glyphs : List Byte) (a b : Nat) (word : List Nat),
      glyphs.map letterCode = (List.replicate a 27 ++ word ++ List.replicate b 27).map some →
      word.head? ≠ some 27 → word.getLast? ≠ some 27 →
      foldRequest glyphs = if 2 ≤ word.length ∧ word.length ≤ 24 then some word else none) ∧
  (∀ (s : State) (glyphs : List Byte), s.hears → 2 ≤ glyphs.length → glyphs.length ≤ 24 →
    let accept := fun (w : List Nat) => s.spell.words.map fun x =>
      if x.state = .suspect ∧ x.letters = w then { x with state := .accepted } else x
    let added := fun (status : Byte) (words : List WordEntry) (user : List (List Nat)) =>
      ∃ t, exec (.addWord glyphs) s = .next t ∧ t.answered 0x49 [status] ∧
        t.spell = { s.spell with words := words, user := user } ∧
        Keeps (.words :: .userList :: .openValues :: settleParts) s t
    let removed := fun (status : Byte) (user : List (List Nat)) =>
      ∃ t, exec (.removeWord glyphs) s = .next t ∧ t.link = s.link.replied 0x4A [status] ∧
        t.spell = { s.spell with user := user } ∧
        Keeps [.outgoing, .userList] s t
    (foldRequest glyphs = none → added 0x07 s.spell.words s.spell.user ∧ removed 0x07 s.spell.user) ∧
    (∀ w, foldRequest glyphs = some w →
      (w ∈ s.spell.user → added 0x00 (accept w) s.spell.user ∧
        removed 0x00 (s.spell.user.filter fun u => u ≠ w)) ∧
      (w ∉ s.spell.user → s.spell.user.length < 64 → added 0x00 (accept w) (s.spell.user ++ [w])) ∧
      (w ∉ s.spell.user → 64 ≤ s.spell.user.length → added 0x03 s.spell.words s.spell.user) ∧
      (w ∉ s.spell.user → removed 0x05 s.spell.user))) ∧
  (∀ s : State, s.composes → SpellOk s.spell → (∀ c ∈ s.comp.line, c.origin ≠ .unreleased) →
    s.set.right ≤ s.comp.cursor → ∀ k rest, s.comp.keys = k :: rest → k.code = 0x04 → ∀ id, s.comp.word = some id →
    let leaves := fun (p : Spelling → Port → Prop) => ∃ t, exec .tab s = .next t ∧ p t.spell t.port ∧
      Keeps (Piece.keys :: .word :: .words :: .port :: settleParts) s t
    let digit := fun (c : Cell) => ∃ g ∈ List.range 10, c.content = .glyph (byteOf (0x30 + g))
    ((∀ w ∈ s.spell.words, w.id = id → w.state ≠ .opened) → leaves fun sp p => sp = s.spell ∧ p = s.port) ∧
    ∀ before w after, s.spell.words = before ++ w :: after → w.id = id → w.state = .opened →
      ((∀ c ∈ s.comp.line, c.word ≠ some id) → leaves fun sp p => p = s.port ∧ sp = { s.spell with
        words := before ++ { w with letters := [], overlong := false, state := .skipped } :: after }) ∧
      ∀ head run tail, s.comp.line = head ++ run ++ tail → (∀ c ∈ run, c.word = some id) →
        (∀ c ∈ head.getLast?, c.word ≠ some id) → (∀ c ∈ tail.head?, c.word ≠ some id) →
        (∀ c ∈ head, c.word = some id → c.start < w.start) →
        ((∃ c ∈ run, w.start ≤ c.start) ∨ ((∀ c ∈ run ++ tail, c.word = some id → c.start < w.start) ∧
          ∀ c ∈ tail, c.word ≠ some id)) →
        ∀ first ∈ run.head?, ∀ last ∈ run.getLast?,
        let codes := run.filterMap fun c => match c.content with
          | .glyph g => letterCode g
          | _ => none
        ∀ a word b, codes = List.replicate a 27 ++ word ++ List.replicate b 27 → word.head? ≠ some 27 →
          word.getLast? ≠ some 27 →
          let skipped := word.length < 2 ∨ 24 < word.length ∨
            (∃ c ∈ head.getLast?, digit c ∧ c.start + c.width = first.start) ∨
            (∃ c ∈ tail.head?, digit c ∧ last.start + last.width = c.start)
          let state : WordState := if s.set.spell = .off ∨ skipped then .skipped
            else if word ∈ s.spell.user then .clean
            else if s.spell.dict ≠ .ready ∨ 4 ≤ s.spell.lookups.length then .unchecked
            else .pending
          let words := before ++ { w with letters := word.take 24, overlong := decide (24 < word.length)
                                          start := first.start, state := state } :: after
          let read : FlashRead := { address := s.spell.indexOffset +
            4 * (word.foldl (fun h c => (h * 37 + c) % 65536) 0 % s.spell.bucketCount), length := 4, asker := .index }
          let lookup : LookupPhase → Lookup := fun p => { word := some id, epoch := w.epoch, letters := word, phase := p }
          (state ≠ .pending → leaves fun sp p => p = s.port ∧ sp = { s.spell with words := words }) ∧
          (state = .pending → s.spell.lookups ≠ [] → (∀ l ∈ s.spell.lookups.head?, l.phase ≠ .waiting) →
            leaves fun sp p => p = s.port ∧
              sp = { s.spell with words := words, lookups := s.spell.lookups ++ [lookup .waiting] }) ∧
          (state = .pending → s.spell.lookups = [] → leaves fun sp p =>
            sp = { s.spell with words := words, lookups := [lookup .index] } ∧
            p = if s.port.current = none then { s.port with current := some read, timer := some 5000 }
              else { s.port with waiting := s.port.waiting ++ [read] })) ∧
  ∀ (s : State) (x : Nat) (id : WordId), SpellOk s.spell →
    let made : WordId → Nat → WordEntry := fun id x =>
      { id := id, letters := [], overlong := false, state := .opened, epoch := 0, vertical := s.comp.vTarget, start := x }
    let joins := fun (w : WordEntry) (sp : Spelling) =>
      let kept := s.spell.words.filter fun v => v.id ≠ w.id
      let lost := fun (l : Lookup) => l.word = some w.id ∨ (kept.length = 32 ∧ l.word.isSome ∧ l.word = kept.head?.map (·.id))
      sp.words = (if kept.length = 32 then kept.tail else kept) ++ [w] ∧
      sp.lookups = (s.spell.lookups.filter fun l => ¬ (l.phase = .waiting ∧ lost l)).map fun l =>
        if lost l then { l with word := none } else l
    (let t := s.openWord x
     joins (made (s.spell.lastWord + 1) x) t.spell ∧ t.spell.lastWord = s.spell.lastWord + 1 ∧
     t.comp = { s.comp with word := some (s.spell.lastWord + 1) } ∧ Same [.words, .word] s.toEngine t) ∧
    (let t := s.handEdited id
     (∀ before w after, s.spell.words = before ++ w :: after → w.id = id →
       t.spell = { s.spell with words := before ++ after ++ [{ w with state := .opened, epoch := w.epoch + 1 }]
                                lookups := s.spell.lookups.filter fun l => ¬ (l.phase = .waiting ∧ l.word = some id) }) ∧
     ((∀ w ∈ s.spell.words, w.id ≠ id) → ∀ head c tail, s.comp.line = head ++ c :: tail → c.word = some id →
       (∀ d ∈ head, d.word ≠ some id) → joins (made id c.start) t.spell ∧ t.spell.lastWord = s.spell.lastWord) ∧
     Same [.words] s.toEngine t)

/-- O29. A wheel table with id 0 or 255 or an unknown pitch class leaves its slot EMPTY; another makes it READY with
its id and pitch, the space and width units clamped into 2..8 and the classes into 0..3, a petal above 95 absent, 95
entries, and the underline code when its glyph has a petal. A lookup takes the first READY slot that carries the wheel
id: NO_WHEEL without one, ABSENT when its entry has no petal. A scan passes the entries before the word, and ends
FOUND at one equal to it, MISSING at one that sorts after it and at the bucket's end, and malformed at an entry of
length 0 or one that runs past the end; what stands behind its end is not seen. In a sorted bucket it finds a word
exactly when the bucket holds it. (R46, R47, R48, R139, R144) -/
def Obligations.FlashTables : Prop :=
  (∀ bytes : List Byte, bytes.length = 292 →
    let at' := fun (i : Nat) => (bytes.getD i 0).toNat
    let known := at' 0 ≠ 0 ∧ at' 0 ≠ 255 ∧ (at' 1 = 0x0A ∨ at' 1 = 0x0C ∨ at' 1 = 0x0F ∨ at' 1 = 0)
    let w := slotOfTable bytes
    (¬ known → w.state = .empty) ∧
    (known → w.state = .ready ∧ w.id = at' 0 ∧
      w.pitch = (if at' 1 = 0x0A then .p10 else if at' 1 = 0x0C then .p12 else if at' 1 = 0x0F then .p15 else .ps) ∧
      w.space = max 2 (min 8 (at' 2)) ∧ w.entries.length = 95 ∧
      (∀ i < 95, w.entries[i]? = some ⟨if at' (4 + 3 * i) ≤ 95 then some (at' (4 + 3 * i)) else none,
        max 2 (min 8 (at' (5 + 3 * i))), min 3 (at' (6 + 3 * i))⟩) ∧
      w.underline = if 0x21 ≤ at' 3 ∧ at' 3 ≤ 0x7F ∧ at' (4 + 3 * (at' 3 - 0x21)) ≤ 95 then some (bytes.getD 3 0) else none)) ∧
  (∀ (slots : List WheelSlot) (code : Byte) (id : Nat),
    lookGlyph slots none code = .noWheel ∧
    ((∀ w ∈ slots, w.state = .ready → w.id ≠ id) → lookGlyph slots (some id) code = .noWheel) ∧
    (∀ before w after, slots = before ++ w :: after → (∀ v ∈ before, v.state = .ready → v.id ≠ id) →
      w.state = .ready → w.id = id → ∀ g, w.entries[code.toNat - 0x21]? = some g →
      (g.petal = none → lookGlyph slots (some id) code = .absent) ∧
      (∀ p, g.petal = some p → lookGlyph slots (some id) code = .found p g.units g.cls w))) ∧
  (∀ (words : List (List Nat)) (w : List Nat),
    let entry := fun (v : List Nat) => byteOf v.length :: v.map byteOf
    let bytes := words.flatMap entry
    (∀ v ∈ words, 1 ≤ v.length ∧ v.length ≤ 255 ∧ ∀ c ∈ v, c < 256) →
    (words.Pairwise (fun a b => sortsAfter b a = true) →
      scanBucket w bytes.length bytes = if w ∈ words then .found else .missing) ∧
    ((∀ v ∈ words, v ≠ w ∧ sortsAfter v w = false) →
      scanBucket w bytes.length bytes = .missing ∧
      (∀ (v : List Nat) (rest : List Byte), 1 ≤ v.length → v.length ≤ 255 → (∀ c ∈ v, c < 256) →
        let all := bytes ++ entry v ++ rest
        (v = w → scanBucket w all.length all = .found) ∧
        (sortsAfter v w = true → scanBucket w all.length all = .missing)) ∧
      (∀ (n : Byte) (rest : List Byte), n = 0 ∨ rest.length < n.toNat →
        let all := bytes ++ n :: rest
        scanBucket w all.length all = .malformed)))

/-- O30. In STARTING, or while the dictionary state is PROBING, DICTIONARY is BUSY. Otherwise the reply is OK, the
state becomes PROBING, every waiting lookup leaves, the one in service stays at the front of the list, voided, every
PENDING word becomes UNCHECKED, and a header read starts on an idle port or waits behind the read in progress. (R140,
R142) -/
def Obligations.DictionaryRequest : Prop :=
  ∀ s : State, s.hears →
    (s.power.state = .starting ∨ s.spell.dict = .probing → ∃ t, exec .dictionary s = .next t ∧
      t.answered 0x4C [0x02] ∧ Keeps (.openValues :: settleParts) s t) ∧
    (s.power.state ≠ .starting → s.spell.dict ≠ .probing → ∃ t, exec .dictionary s = .next t ∧
      t.answered 0x4C [0x00] ∧
      t.spell = { s.spell with
        dict := .probing
        lookups := (s.spell.lookups.filter fun l => l.phase ≠ .waiting).map fun l => { l with word := none }
        words := s.spell.words.map fun w => if w.state = .pending then { w with state := .unchecked } else w } ∧
      (s.port.current = none → t.port = { s.port with
        current := some { address := 0, length := 15, asker := .dictHeader }, timer := some 5000 }) ∧
      (s.port.current ≠ none → t.port = { s.port with
        waiting := s.port.waiting ++ [{ address := 0, length := 15, asker := .dictHeader }] }) ∧
      Keeps (.words :: .dictionary :: .port :: .openValues :: settleParts) s t)

/-- O31. In SLEEP the request is STATE, a time above 60 is MALFORMED, a time 1..60 shows the 40 codes with the timer
at that many seconds, and a time of 0 ends the override; a refusal changes nothing. Nothing else but the link changes.
(R160) -/
def Obligations.DisplayText : Prop :=
  ∀ (s : State) (seconds : Byte) (codes : List Byte), s.hears → codes.length = 40 →
    let answer := fun (status : Byte) (text : Option (List Byte)) (timer : Timer) =>
      ∃ t, exec (.displayText seconds codes) s = .next t ∧ t.link = s.link.replied 0x4D [status] ∧
        t.display.override = text ∧ t.display.overrideTimer = timer ∧ Keeps [.outgoing, .override] s t
    (s.power.state = .sleep → answer 0x04 s.display.override s.display.overrideTimer) ∧
    (s.power.state ≠ .sleep → 60 < seconds.toNat → answer 0x07 s.display.override s.display.overrideTimer) ∧
    (s.power.state ≠ .sleep → seconds = 0 → answer 0x00 none none) ∧
    (s.power.state ≠ .sleep → 1 ≤ seconds.toNat → seconds.toNat ≤ 60 →
      answer 0x00 (some codes) (some (seconds.toNat * 1000000)))

/-- O32. The status record, the identity record and the context form carry the bytes of the layouts, read from the
state as it stands; the carriage is at rest, since a moving counter is an open value (log 3). STATUS with clear
accrued reports the accrued flags and then clears them alone. SAVE_CONTEXT gives the NULL form while no key has been
taken, the IDLE form otherwise, and the BUSY form with a fault held, X slot before P slot. Nothing else changes. In
DEEP_OFF, and on the way there from the OK reply on, STATUS gives the power state DEEP_OFF and the hard reset value of
every other field, with levels that are an open value (log 6), and clears no accrued flag. Where the rules leave it
open the model's choices are logs 2, 3, 6, 57, 67. (R44, R46, R174, R182, R195,
11_the_link_requests_notices_and_layouts.md, Layouts) -/
def Obligations.RecordsRead : Prop :=
  (∀ s : State, s.link.replies.length < 8 → s.power.state = .deepOff ∨ s.power.deepOff ≠ none →
    ∀ i ∈ [Instr.status, .statusClearAccrued], ∃ t, ∃ l : Levels, exec i s = .next t ∧
      t.link = s.link.replied 0x4E ([0x00, 0x04] ++ List.replicate 18 0x00 ++
        [0x00, 0x78, 0x00, 0x00, 0x01, 0x00, l.byte]) ∧ Keeps [.outgoing, .openValues] s t) ∧
  ∀ s : State, s.hears → s.carriage.state ≠ .moving → s.carriage.state ≠ .homing →
    let slot := fun (f : Option FaultSlot) => match f with
      | some f => [byteOf f.kind.code, byteOf f.count] ++ furtherBytes f.kinds
      | none => [0, 0, 0, 0]
    let pendingEntry := match s.power.pendingEntry with
      | none => 0
      | some .standby => 1
      | some .sleep => 2
    let record := [0x00, s.power.state.code, s.seq.state.code, byteOf s.comp.keys.length, byteOf s.seq.queue.length,
        s.seq.stageState.code] ++ slot s.faults.x ++ slot s.faults.p ++ [idByte s.wheel.mounted, idByte s.comp.wheel] ++
      twoBytes s.carriage.position ++ halfBytes s.platen.position ++ twoBytes s.comp.cursor ++
      [byteOf (s.esc.current.bits + 16 * s.esc.accrued.bits), byteOf s.suspectCount, s.spell.dict.code,
        byteOf (pendingEntry + if s.power.wake.isSome then 128 else 0), s.levels.byte]
    let set := s.set
    let context :=
      [byteOf (128 * set.mode.code + 32 * set.align.code + 8 * set.distribute.code + 2 * set.spell.code +
          if set.bidi then 1 else 0),
        byteOf (32 * set.pitch.code + 8 * set.impression + set.spacing / 4), byteOf set.bellZone, idByte s.comp.wheel] ++
      twoBytes set.left ++ twoBytes set.right ++ twoBytes s.comp.cursor ++ [byteOf set.tabs.length] ++ packTabs set.tabs
    let head := fun (f : FaultSlot) =>
      [byteOf f.kind.code, byteOf (orderCode f.order + if f.afterHammer then 128 else 0), byteOf f.group, f.glyph.getD 0] ++
      (match f.target with
        | some (h, v) => twoBytes h ++ halfBytes v
        | none => [0, 0, 0, 0])
    let xSlot := match s.faults.x with
      | some f => head f ++ [idByte f.required, byteOf f.count] ++ furtherBytes f.kinds
      | none => List.replicate 12 0
    let pSlot := match s.faults.p with
      | some f => head f ++ [byteOf f.count] ++ furtherBytes f.kinds
      | none => List.replicate 11 0
    let answer := fun (i : Instr) (typ : Byte) (payload : List Byte) => ∃ t, exec i s = .next t ∧
      t.link = s.link.replied typ payload ∧ Keeps [.outgoing] s t
    answer .status 0x4E record ∧
    (∃ t, exec .statusClearAccrued s = .next t ∧ t.link = s.link.replied 0x4E record ∧
      t.esc = { s.esc with accrued := {} } ∧ Keeps [.outgoing, .lineFlags] s t) ∧
    answer .identify 0x4F ([0x00, 0x12, 0x0C, Config.siliconRevision, 64, 32] ++ twoBytes 512 ++
      [64, 4, 80, s.spell.dict.code] ++ threeBytes s.spell.wordCount ++ twoBytes s.spell.bucketCount ++
      s.slots.map (fun w => if w.state = .ready then byteOf w.id else 0) ++ halfBytes s.port.flashSize) ∧
    (s.faults.x = none → s.faults.p = none → s.comp.composed = false → answer .saveContext 0x51 [0x00, 0x00]) ∧
    (s.faults.x = none → s.faults.p = none → s.comp.composed = true →
      answer .saveContext 0x51 (0x00 :: 0x01 :: context)) ∧
    (s.faults.x ≠ none ∨ s.faults.p ≠ none →
      answer .saveContext 0x51 (0x00 :: 0x02 :: context ++ xSlot ++ pSlot))

/-- O33. RESTORE_CONTEXT is BUSY in STARTING and unless the keys, orders, line and fault record are empty. An unknown
form byte, a NULL form with more bytes, a wrong length, more than 16 stops, and a spelling, pitch or spacing code
outside its values are MALFORMED. A NULL form restores the hard reset settings but energy, standby timer and contrast,
and clears the composed mark. An IDLE or BUSY form sets every setting with its clamping, the tab stops clamped, sorted
and without repeats, the cursor and the relocate point, and appends one MOVE of group 0 to the cursor; the reply is
CLAMPED when a field was clamped, dropped, replaced or ignored, as the fault slots of a BUSY form always are. In
STANDBY and SLEEP an accepted form starts a wake, whose knob count moves the vertical target and the relocate point
with the paper (R95). Where the rules leave it open the model's choices are log 59. (R174, R175, R183, R95,
11_the_link_requests_notices_and_layouts.md, Context forms) -/
def Obligations.RestoreContext : Prop :=
  ∀ (s : State) (c : Settings) (raw : List Nat) (wheel zone : Byte) (impression : Nat) (left right cursor : Half)
    (busy : Bool) (slots : List Byte) (f : Byte) (rest : List Byte), s.hears →
    rest.length ≤ 56 → impression ≤ 3 → c.spacing ∈ [8, 12, 16, 20, 24] →
    raw.length ≤ 16 → (∀ x ∈ raw, x < 2048) → slots.length = (if busy then 23 else 0) →
    let free := s.comp.keys = [] ∧ s.seq.queue = [] ∧ s.seq.stageState = .empty ∧ s.comp.line = [] ∧
      s.faults.x = none ∧ s.faults.p = none
    let form := [if busy then 0x02 else 0x01,
        byteOf (128 * c.mode.code + 32 * c.align.code + 8 * c.distribute.code + 2 * c.spell.code +
          if c.bidi then 1 else 0),
        byteOf (32 * c.pitch.code + 8 * impression + c.spacing / 4), zone, wheel] ++
      halfBytes left ++ halfBytes right ++ halfBytes cursor ++ [byteOf raw.length] ++ packTabs raw ++ slots
    let stops := (rest.getD 10 0).toNat
    let malformed := 2 < f.toNat ∨ (f = 0 ∧ rest ≠ []) ∨
      (f = 1 ∨ f = 2) ∧ (16 < stops ∨ rest.length ≠ 11 + (11 * stops + 7) / 8 + (if f = 2 then 23 else 0) ∨
        (rest.getD 0 0).toNat / 2 % 4 = 3 ∨ 4 < (rest.getD 1 0).toNat / 32 ∨
        (rest.getD 1 0).toNat % 8 < 2 ∨ 6 < (rest.getD 1 0).toNat % 8)
    let l := min 1599 left.toNat
    let r := min 1599 right.toNat
    let margins := if l + 120 ≤ r then (l, r) else if l ≤ 1479 then (l, l + 120) else (1479, 1599)
    let fixed : Bool := match readySlot s.slots s.comp.wheel with
      | some w => w.pitch ≠ .ps
      | none => false
    let set : List Nat → Settings := fun tabs => { s.set with
      mode := c.mode, align := c.align, distribute := c.distribute, spell := c.spell, bidi := c.bidi
      pitch := if c.pitch = .ps ∧ fixed then .auto else c.pitch, impression := max 1 impression
      spacing := c.spacing, bellZone := min 240 zone.toNat, left := margins.1, right := margins.2, tabs := tabs }
    let clamped : Bool := busy ∨ impression = 0 ∨ 240 < zone.toNat ∨ margins ≠ (left.toNat, right.toNat) ∨
      (∃ x ∈ raw, 1599 < x) ∨ ¬ raw.Nodup ∨
      (c.pitch = .ps ∧ fixed) ∨ wheel.toNat ≠ s.wheel.mounted.getD 0 ∨ 1599 < cursor.toNat
    let wakes := fun (t : State) => s.power.state = .standby ∨ s.power.state = .sleep → s.power.softReset = none →
      t.power.wake.isSome = true
    (s.power.state = .starting ∨ ¬ free → Refused (.restoreContext (f :: rest)) s 0x52 [0x02]) ∧
    (s.power.state ≠ .starting → free → malformed → Refused (.restoreContext (f :: rest)) s 0x52 [0x07]) ∧
    (s.power.state ≠ .starting → free → ∃ t, exec (.restoreContext [0x00]) s = .next t ∧ t.answered 0x52 [0x00] ∧
      t.set = { ({} : Settings) with energy := s.set.energy, standby := s.set.standby, contrast := s.set.contrast } ∧
      t.comp.composed = false ∧ t.comp.cursor = s.comp.cursor ∧ t.comp.wheel = s.comp.wheel ∧ wakes t ∧
      (s.power.state = .run ∨ s.platen.knobSeen = false → t.comp = { s.comp with composed := false }) ∧
      (s.power.state = .run → Keeps (.keys :: .settings :: .openValues :: settleParts) s t)) ∧
    (s.power.state ≠ .starting → free → ∃ t, exec (.restoreContext form) s = .next t ∧
      t.answered 0x52 [if clamped then 0x01 else 0x00] ∧
      t.set = set t.set.tabs ∧ t.set.tabs.Pairwise (· < ·) ∧
      (∀ x ∈ t.set.tabs, ∃ y ∈ raw, x = min 1599 y) ∧ (∀ y ∈ raw, min 1599 y ∈ t.set.tabs) ∧
      t.comp.cursor = min 1599 cursor.toNat ∧ t.comp.relocateH = min 1599 cursor.toNat ∧ t.comp.index = 0 ∧
      (∃ o, t.seq.queue = [o] ∧ o.kind = .move ∧ o.group = 0 ∧ o.horizontal = min 1599 cursor.toNat ∧
        o.vertical = s.comp.vTarget) ∧ wakes t ∧
      (s.power.state = .run → t.comp.relocateV = s.comp.vTarget ∧
        Keeps (.settings :: .cursor :: .line :: .relocate :: .window :: .ids :: .openValues :: settleParts) s t))

/-- O34. SELF_TEST is BUSY outside RUN, while a test runs, with keys, orders, a release stage or a fault standing, and
unless the sequencer is IDLE or PAUSED. A test that is taken replies OK with the next group id and notes the carriage
position, or none of a LOST carriage, and the mounted wheel (R55). Its first step moves the lift to VIEW; with the
lift at VIEW the second begins with a homing of the carriage. Where the rules leave it open the model's choices are
logs 55, 56. (R55, R66, R176) -/
def Obligations.SelfTestRequest : Prop :=
  ∀ s : State, s.hears →
    let may := s.power.state = .run ∧ s.selfTest = none ∧ s.comp.keys = [] ∧ s.seq.queue = [] ∧
      s.seq.stageState = .empty ∧ s.faults.x = none ∧ s.faults.p = none ∧ (s.seq.state = .idle ∨ s.seq.state = .paused)
    (¬ may → Refused .selfTest s 0x50 [0x02]) ∧
    (may → s.idleChannels → s.quiet → ∃ t, exec .selfTest s = .next t ∧ t.answered 0x50 [0x00, byteOf s.groupId] ∧
      t.seq.lastGroup = s.groupId ∧
      (∃ x, t.selfTest = some x ∧ x.group = s.groupId ∧ x.failed = [] ∧ x.wheel = s.wheel.mounted ∧
        x.position = (if s.carriage.state = .lost then none else some s.carriage.position)) ∧
      (∀ p, s.lift.state = .held p → p ≠ .view → t.lift.state = .moving ∧ t.lift.target = .view) ∧
      (s.lift.state = .held .view → s.carriage.state = .idle → t.carriage.state = .homing) ∧
      Keeps (.selfTest :: .ids :: .carriage :: .openValues :: settleParts) s t)

/-- O35. In STOPPED both are BUSY, and in FAULTED both are STATE. PAUSE takes IDLE to PAUSED and starts the view
timer; in RUNNING it makes a pause pending behind an executing order, and takes a head that does not execute yet to
PAUSED at once, where a PREPARED head stays PREPARED while its checks pass. CONTINUE takes PAUSED to IDLE, or to
RUNNING with the head order taken up by the prepare stage, and cancels a pending pause. Where they change nothing they
are OK. The prepare stage makes an order PREPARED that passes the checks of R67. The first that fails gives a held
failure: that of the head is written to the P slot at once, with a FAULT notice and the sequencer FAULTED, and that of
an order behind an executing one waits, with no fault written. A LIFT whose record is gone is dropped as stale with no
fault, and its group closes with DONE(STALE). Where the rules leave it open the model's choices are logs 37, 84, 86.
(R65, R67, R68, R77, R78, R79, R83, R164) -/
def Obligations.PauseAndContinue : Prop :=
  ∀ s : State, s.hears → NumbersOk s.seq →
    let q := s.seq.queue
    let ready := fun (o : Order) => s.lasts o ∧ s.failure o = none
    (∀ p ∈ [(Instr.pause, (0x55 : Byte)), (.continuing, 0x56)],
      (s.seq.state = .stopped → Refused p.1 s p.2 [0x02]) ∧ (s.seq.state = .faulted → Refused p.1 s p.2 [0x04])) ∧
    (s.seq.state = .paused ∨ (s.seq.state = .running ∧ s.seq.pausePending = true) → Refused .pause s 0x55 [0x00]) ∧
    (s.seq.state = .idle ∨ (s.seq.state = .running ∧ s.seq.pausePending = false) → Refused .continuing s 0x56 [0x00]) ∧
    (s.seq.state = .idle → q = [] → s.seq.stage = [] → ∃ t, exec .pause s = .next t ∧ t.answered 0x55 [0x00] ∧
      t.seq.state = .paused ∧ t.seq.viewTimer = some 1000000 ∧ Keeps (.openValues :: settleParts) s t) ∧
    (s.seq.state = .running → s.seq.pausePending = false → s.faults.p = none → ∀ o rest, q = o :: rest →
      (o.state = .executing → ∃ t, exec .pause s = .next t ∧ t.answered 0x55 [0x00] ∧ t.seq.state = .running ∧
        t.seq.pausePending = true ∧ t.seq.queue.head? = some o ∧ Keeps (.openValues :: settleParts) s t) ∧
      (o.state = .queued → o.held = none → ∃ t, exec .pause s = .next t ∧ t.answered 0x55 [0x00] ∧
        t.seq.state = .paused ∧ t.seq.viewTimer = some 1000000 ∧ t.seq.queue.head? = some o ∧
        Keeps (.openValues :: settleParts) s t) ∧
      (o.state = .prepared → ready o → ∃ t, exec .pause s = .next t ∧ t.answered 0x55 [0x00] ∧
        t.seq.state = .paused ∧ t.seq.viewTimer = some 1000000 ∧
        t.seq.queue.head? = some { o with held := none, heldWritten := false } ∧
        Keeps (.openValues :: settleParts) s t)) ∧
    (s.seq.state = .running → s.seq.pausePending = true → s.faults.p = none → ∀ o rest, q = o :: rest →
      o.state = .executing → ∃ t, exec .continuing s = .next t ∧ t.answered 0x56 [0x00] ∧ t.seq.state = .running ∧
        t.seq.pausePending = false ∧ t.seq.queue.head? = some o ∧
        (s.seq.recovery = {} → ∀ p more, rest = p :: more → p.state = .queued → p.held = none → s.lasts p →
          t.faults = s.faults ∧ t.seq.queue.tail.head? = some (match s.failure p with
            | none => { p with state := .prepared, held := none, heldWritten := false }
            | some k => { p with held := some k, heldWritten := false })) ∧
        Keeps (.openValues :: settleParts) s t) ∧
    (s.seq.state = .paused → q = [] → s.seq.stage = [] → ∃ t, exec .continuing s = .next t ∧ t.answered 0x56 [0x00] ∧
      t.seq.state = .idle ∧ Keeps (.openValues :: settleParts) s t) ∧
    (s.seq.state = .paused → s.seq.recovery = {} → ∀ o rest, q = o :: rest → o.state ≠ .executing → ready o →
      ∃ t, exec .continuing s = .next t ∧ t.answered 0x56 [0x00] ∧ t.seq.state = .running ∧
        t.seq.queue.head? = some { o with state := .prepared, held := none, heldWritten := false } ∧
        Keeps (.openValues :: settleParts) s t) ∧
    (s.seq.state = .paused → s.seq.recovery = {} → s.faults.x = none → s.faults.p = none → ∀ o rest, q = o :: rest →
      o.state ≠ .executing → o.held = none →
      (s.lasts o → ∀ k, s.failure o = some k → ∃ t, exec .continuing s = .next t ∧ t.answered 0x56 [0x00] ∧
        t.seq.queue.head? = some { o with state := .queued, held := some k, heldWritten := true } ∧
        WritesHeld k o s t ∧ t.faults.x = none ∧ Keeps (.openValues :: settleParts) s t) ∧
      (rest = [] → s.seq.stage = [] → s.seq.pausePending = false →
        (o.kind = .lift .gone ∨ ∃ k, o.kind = .lift (.record k) ∧ ∀ r ∈ s.memory.records, r.slot ≠ k) → ∃ t, exec .continuing s = .next t ∧
        t.answered 0x56 [0x00] ∧ t.seq.queue = [] ∧ t.seq.state = .idle ∧ t.faults = s.faults ∧
        (∀ g ∈ s.seq.groups, s.seq.groups = [g] → g.id = o.group → g.remaining = 1 → t.seq.groups = [] ∧
          (s.link.tx ≠ none → s.link.notices = [] → t.raised (.done g.id g.kind
            (if g.flushed then .flushed else if g.aborted then .aborted else .stale) (g.notExecuted + 1) []))) ∧
        Keeps (.openValues :: settleParts) s t))

/-- O36. RESUME is BUSY in STARTING and during a re-homing, and STATE without a fault, during a self-test, with the
cover open, with paper absent for a STRIKE or LIFT, with the ribbon at its end for a STRIKE, and with the tape at its
end for a LIFT. Taken, it empties both slots and leaves FAULTED, for RUNNING with orders and for IDLE without; the
head order is PREPARED, or its check fails again and fills the P slot anew, and neither before a wheel homing of the
recovery has ended. It makes the executing order QUEUED, homes a LOST carriage, moves an UNKNOWN lift to VIEW, and
homes an UNKNOWN or OFF wheel, or one with a WHEEL_MISMATCH, unless the faulted order is a WHEEL_CHANGE, with the
required id kept with that fault, or else with the composition wheel, or the mounted wheel before the fault when a
WHEEL_CHANGE stands behind the faulted order. During a pulse or its rest the wheel homing waits. A fire that waits for
hammer-home is given up. Where the rules leave it open the model's choices are logs 9, 15, 41, 42, 43, 78, 83, 89, 96,
97. (R55, R71, R78, R80, R97, R169, R170, R177) -/
def Obligations.ResumeRequest : Prop :=
  ∀ s : State, s.hears →
    let late := s.power.state = .starting ∨ s.power.softReset ≠ none
    let held := s.faults.x ≠ none ∨ s.faults.p ≠ none
    let x := s.executing.map (·.kind.name)
    let named := s.faults.p.bind (·.order)
    let behind := s.pOrder.map (·.kind.name)
    let needsPaper := x = some .strike ∨ x = some .lift ∨ named = some .strike ∨ named = some .lift
    let blocked := s.levels.closed = false ∨ (s.levels.present = false ∧ needsPaper) ∨
      (s.levels.ribbonEnd = true ∧ (x = some .strike ∨ behind = some .strike)) ∨
      (s.levels.tapeEnd = true ∧ (x = some .lift ∨ behind = some .lift))
    let mismatch := ∃ f, s.faults.x = some f ∧ (f.kind = .wheelMismatch ∨ .wheelMismatch ∈ f.kinds)
    let fires := s.hammer.state = .on ∨ s.hammer.state = .rest
    let homes := (s.wheel.state = .unknown ∨ s.wheel.state = .off ∨ mismatch) ∧ x ≠ some .wheelChange
    let homing := ∃ h, s.wheel.homing = some h ∧ h.use ∈ [HomingUse.resume, .order, .change]
    let later := if s.executing.isSome ∨ (s.faults.x = none ∧ s.faults.p.isSome ∧
      s.seq.queue.head?.map (·.number) = s.faults.named) then s.seq.queue.tail else s.seq.queue
    let again := fun (o : Order) => { o with state := .queued, held := none, heldWritten := false, phase := .start }
    let leaves := fun (t : State) => t.faults.p = none ∧ t.seq.state = if s.seq.queue = [] then .idle else .running
    (late → Refused .resume s 0x53 [0x02]) ∧
    (¬ late → ¬ held ∨ s.selfTest ≠ none ∨ blocked → Refused .resume s 0x53 [0x04]) ∧
    (¬ late → held → ¬ blocked → s.selfTest = none → s.power.entering = none → s.power.startUp = none → OrdersOk s.seq →
      ∃ t, exec .resume s = .next t ∧ t.answered 0x53 [0x00] ∧ t.faults.x = none ∧
      (∀ o ∈ t.seq.queue, o.state ≠ .executing) ∧
      (s.seq.queue = [] → s.seq.stage = [] → leaves t) ∧ (homes ∨ homing → s.seq.queue ≠ [] → leaves t ∧
        t.seq.queue.take s.seq.queue.length = s.seq.queue.map again) ∧
      (¬ homes → ¬ homing → ∀ o rest, s.seq.queue = o :: rest → s.lasts o →
        (s.failure o = none → leaves t ∧ t.seq.queue.head? = some { again o with state := .prepared }) ∧
        ∀ k, s.failure o = some k → t.seq.state = .faulted ∧
          t.seq.queue.head? = some { again o with held := some k, heldWritten := true } ∧
          t.faults.p = some { kind := k, order := some o.kind.name, group := o.group
                              target := some (o.horizontal, o.vertical), glyph := s.glyphOf o, afterHammer := false
                              required := none, count := 0, kinds := [] }) ∧
      (s.quiet → s.carriage.state = .lost → t.carriage.state = .homing) ∧
      (s.quiet → s.lift.state = .unknown → (¬ s.readsView → t.lift.state = .moving ∧ t.lift.target = .view) ∧
        (s.readsView → t.lift.state = .held .view)) ∧
      t.hammer = { s.hammer with waitTimer := none } ∧
      (homes → t.wheel.state = (if fires then s.wheel.state else .homing) ∧ t.seq.recovery.wheel = true ∧
        ∃ h, t.wheel.homing = some h ∧ h.use = .resume ∧ h.phase = (if fires then .waiting else .search) ∧
          (∀ f, s.faults.x = some f → f.kind = .wheelMismatch → h.required = f.required) ∧
          ((∀ f, s.faults.x = some f → f.kind ≠ .wheelMismatch) → h.required =
            if later.any (fun o => o.kind.name = .wheelChange) then s.faults.wheelBefore else s.comp.wheel)) ∧
      Keeps (.recovery :: .carriage :: .wheel :: .hammer :: .openValues :: settleParts) s t)

/-- O37. FLUSH is BUSY in STARTING, STOPPED, during a self-test and during a wake, and OK without effect in STANDBY
and SLEEP. In RUN the fault record and the release stage are emptied and every order leaves, but an executing one
with its after-hammer mark set while no fault is held. Such a STRIKE or LIFT, taken during a fire or on its way to
its next one, stays EXECUTING alone in the queue with the sequencer RUNNING. When an order left and no line is open,
no cell refers to a discarded order, the vertical target is the platen's position, where a line at another target is
rebuilt, the cursor is the print point, or the end position of the order that stays, and the composition wheel is
the mounted wheel. With no order to lose the composition unit stays as it was (R173), but that the FLUSH of an X
fault, which was then written outside an order, makes the composition wheel the mounted wheel (R57, R102); that R102
holds there against R173 is the model's choice, log 106. A group that loses all its orders closes with DONE(FLUSHED)
and its count. Where the rules leave it open the model's choices are logs 28, 43, 44, 69, 72, 78, 94, 99, 101, 106.
(R15, R57, R80, R83, R85, R102, R172, R173) -/
def Obligations.FlushRequest : Prop :=
  ∀ s : State, s.hears →
    let late := s.power.state = .starting ∨ s.seq.state = .stopped ∨ s.selfTest ≠ none ∨ s.power.wake ≠ none
    let keeps := ∃ o, s.executing = some o ∧ o.afterHammer = true ∧ s.faults.x = none ∧ s.faults.p = none
    let back := fun (t : State) (lost kept : List Order) (x : Nat) =>
      lost ≠ [] → s.comp.line.all (fun c => !c.unreleased) = true →
        (s.platen.position ≠ s.comp.vTarget → t.linedUp s.memory.records kept) ∧
        t.comp.vTarget = s.platen.position ∧ t.comp.cursor = x ∧ t.comp.word = none ∧ t.comp.wheel = s.wheel.mounted ∧
        ∀ c ∈ t.comp.line, ∀ o ∈ lost, c.origin ≠ .queued o.number
    (late → Refused .flush s 0x54 [0x02]) ∧
    (¬ late → s.power.state ≠ .run → Refused .flush s 0x54 [0x00]) ∧
    (¬ late → s.power.state = .run → s.power.entering = none → s.power.startUp = none → s.power.softReset = none →
      NumbersOk s.seq → ∃ t, exec .flush s = .next t ∧ t.answered 0x54 [0x00] ∧ t.faults.x = none ∧ t.faults.p = none ∧
      t.seq.stage = [] ∧ t.seq.stageState = .empty ∧ t.seq.pausePending = false ∧ t.set = s.set ∧ t.slots = s.slots ∧
      t.comp.keys = s.comp.keys ∧ t.spell.user = s.spell.user ∧
      (s.seq.queue = [] → s.seq.stage = [] →
        t.comp = if s.faults.x = none then s.comp else { s.comp with wheel := s.wheel.mounted }) ∧
      (¬ keeps → t.seq.queue = [] ∧ t.seq.state = .idle ∧ t.memory = s.memory ∧
        back t (s.seq.queue ++ s.seq.stage) [] s.seq.printPoint ∧
        (∀ g ∈ s.seq.groups, s.seq.groups = [g] → 0 < g.remaining →
          g.remaining = ((s.seq.queue ++ s.seq.stage).filter (fun o => o.group = g.id)).length →
          t.seq.groups = [] ∧ (s.link.tx ≠ none → s.link.notices = [] →
            t.raised (.done g.id g.kind .flushed (g.notExecuted + g.remaining) [])))) ∧
      (keeps → ∀ o, s.executing = some o → o.kind.name = .strike ∨ o.kind.name = .lift →
        s.hammer.state = .on ∨ s.hammer.state = .rest ∨ (s.carriage.state = .moving ∧ o.nextFire ≠ none) →
        t.seq.queue = [o] ∧ t.seq.state = .running ∧ (s.seq.queue.tail = [] → s.seq.stage = [] → t.comp = s.comp) ∧
        back t (s.seq.queue.tail ++ s.seq.stage) [o]
          (o.horizontal + match o.kind with
            | .strike f => f.width
            | _ => 0)))

/-- O38. Both are BUSY in STARTING. In RUN with the conditions of R180 the part enters at once when the lift is at
VIEW, during a pulse or a rest too (log 105), with every channel OFF and the POWER notice, and otherwise moves the
lift to VIEW first; without them, and during a wake, the request becomes the pending entry. Without a wake STANDBY
and SLEEP pass from one to the other, lighting or darkening the display, and a request for the present state changes
nothing. Where the rules leave it open the model's choices are logs 50, 105. (R103, R162, R179, R180, R181) -/
def Obligations.RestRequests : Prop :=
  ∀ s : State, s.hears → s.power.entering = none →
    ∀ p ∈ [(Instr.standby, (0x57 : Byte), Rest.standby, PowerState.standby), (.sleep, 0x58, .sleep, .sleep)],
    let busy := s.power.wake ≠ none ∨ s.power.softReset ≠ none
    let resting := s.power.state = .standby ∨ s.power.state = .sleep
    (s.power.state = .starting → Refused p.1 s p.2.1 [0x02]) ∧
    ((s.power.state = .run ∧ s.restful = false) ∨ (resting ∧ busy) → ∃ t, exec p.1 s = .next t ∧
      t.answered p.2.1 [0x00] ∧ t.power.pendingEntry = some p.2.2.1 ∧ t.power.state = s.power.state ∧
      Keeps (.openValues :: settleParts) s t) ∧
    (s.power.state = .run → s.restful = true → s.lift.state = .held .view → ∃ t, exec p.1 s = .next t ∧
      t.answered p.2.1 [0x00] ∧ t.power.state = p.2.2.2 ∧ t.power.pendingEntry = none ∧ t.carriage.state = .off ∧
      t.wheel.state = .off ∧ t.platen.state = .off ∧ t.platen.knobCount = 0 ∧ t.hammer.state = .off ∧
      (s.carriage.state ≠ .moving → s.carriage.state ≠ .homing → t.carriage.position = s.carriage.position) ∧
      t.wheel.mounted = s.wheel.mounted ∧
      t.platen.position = s.platen.position ∧ t.lift.state = .held .view ∧
      (s.link.tx ≠ none → s.link.notices = [] → t.raised (.power p.2.2.2)) ∧
      (p.2.2.2 = .sleep → t.display.lit = false ∧ t.display.message = .nothing ∧ t.display.override = none) ∧
      Keeps (.recovery :: .carriage :: .wheel :: .platen :: .hammer :: .light :: .override :: .openValues :: settleParts) s t) ∧
    (s.power.state = .run → s.restful = true → s.quiet → (∀ q, s.lift.state = .held q → q ≠ .view) →
      (s.lift.state = .unknown → ¬ s.readsView) →
      ∃ t, exec p.1 s = .next t ∧ t.answered p.2.1 [0x00] ∧ t.power.state = .run ∧
      t.power.entering = some p.2.2.1 ∧ t.seq.viewTimer = none ∧ t.lift.state = .moving ∧
      (s.lift.state ≠ .moving → t.lift.target = .view) ∧ Keeps (.openValues :: settleParts) s t) ∧
    (s.power.state = p.2.2.2 → ¬ busy → Refused p.1 s p.2.1 [0x00]) ∧
    (resting → s.power.state ≠ p.2.2.2 → ¬ busy → ∃ t, exec p.1 s = .next t ∧ t.answered p.2.1 [0x00] ∧
      t.power.state = p.2.2.2 ∧ t.display.lit = decide (p.2.2.2 = .standby) ∧
      (p.2.2.2 = .sleep → t.display.override = none) ∧
      (p.2.2.2 = .sleep → s.seq.queue = [] → s.seq.stage = [] → t.display.message = .nothing) ∧
      Keeps (.light :: .override :: .openValues :: settleParts) s t)

/-- O39. DEEP_OFF is BUSY in STARTING, during a wake or re-homing, and with work or a fault standing; otherwise its OK
reply goes out first, and the end of that reply takes the part to DEEP_OFF with every state at its hard reset value
and every channel OFF, at once with the lift at VIEW, during a pulse or a rest too (log 105), and otherwise when its
move to VIEW has ended or stalled, which no notice reports. A WAKE taken on the way is OK, and starts the
start-up sequence at DEEP_OFF. WAKE changes nothing in RUN, STARTING and during a wake. In STANDBY and SLEEP it starts
the wake: the display is lit, the channels are energised, the carriage homes and returns to its kept position, and the
wheel homes with the mounted wheel as its required id. In DEEP_OFF it starts the start-up sequence. Where the rules
leave it open the model's choices are logs 51, 61, 91, 105. (R162, R182, R183, R184, R185) -/
def Obligations.OffAndWake : Prop :=
  ∀ s : State,
    let busy := s.power.state = .starting ∨ s.power.wake ≠ none ∨ s.power.softReset ≠ none ∨ s.comp.keys ≠ [] ∨
      s.seq.queue ≠ [] ∨ s.seq.stageState ≠ .empty ∨ s.faults.x ≠ none ∨ s.faults.p ≠ none ∨ s.selfTest ≠ none
    let cold : Engine := Engine.cold s.pins
    let starts := fun (t : State) => t.power.state = .starting ∧ t.power.deepOff = none ∧
      t.port.current = some { address := 0, length := 15, asker := .startHeader } ∧
      t.levels = s.pins.sensors ∧ t.comp = cold.comp ∧ t.set = cold.set ∧ t.slots = cold.slots ∧ t.seq = cold.seq ∧
      t.memory = cold.memory ∧ t.spell = cold.spell ∧ t.faults = cold.faults ∧ t.esc = cold.esc ∧ t.selfTest = none
    let off := fun (t : State) =>
      t.power = { state := .deepOff, startUp := none } ∧ t.comp = cold.comp ∧ t.set = cold.set ∧ t.slots = cold.slots ∧
      t.seq = cold.seq ∧ t.memory = cold.memory ∧ t.spell = cold.spell ∧ t.faults = cold.faults ∧ t.port = cold.port ∧
      t.esc = cold.esc ∧ t.levels = cold.levels ∧ t.selfTest = none ∧ t.wheel.mounted = none ∧ t.wheel.petal = none ∧
      t.carriage.position = 0 ∧ t.platen.position = 0 ∧ t.platen.knobCount = 0 ∧ t.carriage.state = .off ∧
      t.wheel.state = .off ∧ t.platen.state = .off ∧ t.hammer.state = .off ∧ t.display.lit = false ∧
      t.display.window = 0 ∧ t.display.message = .nothing ∧ t.display.override = none ∧ t.link.notices = []
    (s.hears → busy → ∃ t, exec .deepOff s = .next t ∧ t.link = s.link.replied 0x59 [0x02] ∧ Keeps [.outgoing] s t) ∧
    (s.hears → ¬ busy → ∃ t, exec .deepOff s = .next t ∧ t.power.state = s.power.state ∧
      t.power.deepOff = some .replying ∧
      (t.link.tx = some ⟨⟨0x59, [0x00]⟩, true⟩ ∨ ⟨⟨0x59, [0x00]⟩, true⟩ ∈ t.link.replies) ∧
      Keeps settleParts s t) ∧
    (∀ f, s.link.tx = some f → f.closing = true → s.power.deepOff = some .replying → s.power.wakeAfterOff = false →
      (s.power.state = .run → s.lift.state = .held .view) → ∃ t, exec .transmitFrameEnd s = .next t ∧
      off t ∧ t.pins = s.pins) ∧
    (s.link.replies.length < 8 → s.power.state ≠ .deepOff → s.power.deepOff ≠ none → ∃ t, exec .wake s = .next t ∧
      t.answered 0x5A [0x00] ∧ t.power = { s.power with wakeAfterOff := true } ∧ Keeps [.outgoing, .power] s t) ∧
    (∀ f, s.link.tx = some f → f.closing = true → s.power.deepOff = some .replying → s.power.wakeAfterOff = true →
      (s.power.state = .run → s.lift.state = .held .view) → ∃ t, exec .transmitFrameEnd s = .next t ∧
      starts t ∧ t.pins = s.pins) ∧
    (∀ f, s.link.tx = some f → f.closing = true → s.power.deepOff = some .replying → s.power.state = .run → s.quiet →
      (∃ q, s.lift.state = .held q ∧ q ≠ .view) → ∃ t, exec .transmitFrameEnd s = .next t ∧
      t.power.deepOff = some .lifting ∧ t.lift.state = .moving ∧ t.lift.target = .view) ∧
    (s.power.state = .run → s.power.deepOff = some .lifting → s.lift.state = .moving →
      let arrives := fun (t : State) =>
        (s.power.wakeAfterOff = false → off t) ∧ (s.power.wakeAfterOff = true → starts t)
      (s.lift.target = .view → s.lift.viaView = false → s.executing = none → s.selfTest = none →
        ∃ t, exec (.liftSwitchChange false true) s = .next t ∧ arrives t ∧
        t.pins = { s.pins with lsw1Closed := false, lsw0Closed := true }) ∧
      ∃ t, exec .liftTimerExpiry s = .next t ∧ arrives t ∧ t.pins = s.pins) ∧
    (s.hears → s.power.state = .run ∨ s.power.state = .starting ∨ s.power.wake ≠ none →
      Refused .wake s 0x5A [0x00]) ∧
    (s.hears → s.power.state = .standby ∨ s.power.state = .sleep → s.power.wake = none → s.power.softReset = none →
      ∃ t, exec .wake s = .next t ∧ t.answered 0x5A [0x00] ∧ t.power.state = s.power.state ∧
      t.power.pendingEntry = none ∧ t.display.lit = true ∧ t.carriage.state = .homing ∧
      t.carriage.after = .to s.carriage.position ∧ t.platen.state = .idle ∧ t.platen.knobCount = 0 ∧
      (s.platen.knobSeen = true →
        t.platen.position = s.platen.position + 4 * s.platen.knobCount.signExtend 16 ∧
        t.comp.vTarget = s.comp.vTarget + 4 * s.platen.knobCount.signExtend 16 ∧ t.memory.records = []) ∧
      (s.platen.knobSeen = false → t.platen.position = s.platen.position ∧ t.memory = s.memory) ∧
      t.hammer.state = (if s.pins.hammerHome then .ready else .stuck) ∧
      t.wheel.homing = some ⟨.wake, s.wheel.mounted, if s.levels.closed then .search else .waiting⟩) ∧
    (s.link.replies.length < 8 → s.power.state = .deepOff → ∃ t, exec .wake s = .next t ∧ t.answered 0x5A [0x00] ∧
      starts t)

/-- O40. RESET is BUSY in STARTING. Otherwise the key queue, the strike queue, the release stage, the groups, the
fault record and the self-test are emptied, each open group with a DONE notice ABORTED (FLUSHED after a FLUSH) that
counts its orders not executed, in their order, no UNRELEASED cell stays, the pending entry and the composition wheel
become none, and the sequencer is STOPPED. The settings, the slots, the user list, the dictionary state, the last
group id and, in RUN, the correction memory are kept. The vertical target is the platen's position, where in RUN the
line is rebuilt from the records, and the cursor the left margin. With the hammer quiet the carriage homes for the
left margin, and the wheel homes with required id none or waits for the cover. Where the rules leave it open the
model's choices are logs 37, 49, 60, 99. (R15, R26, R86, R105, R163, R178, R186) -/
def Obligations.ResetRequest : Prop :=
  ∀ s : State, s.hears →
    (s.power.state = .starting → ∃ t, exec .reset s = .next t ∧ t.link = s.link.replied 0x5B [0x02] ∧
      Keeps [.outgoing] s t) ∧
    (s.power.state ≠ .starting → ∃ t, exec .reset s = .next t ∧ t.answered 0x5B [0x00] ∧ t.seq.groups = [] ∧
      (s.link.tx ≠ none → s.selfTest = none → s.seq.groups.length ≤ 15 →
        t.link.notices.take s.seq.groups.length = s.seq.groups.map (fun g =>
          .done g.id g.kind (if g.flushed then .flushed else .aborted) (g.notExecuted + g.remaining) [])) ∧
      t.comp.keys = [] ∧ t.seq.queue = [] ∧ t.seq.stage = [] ∧ t.seq.stageState = .empty ∧ t.faults = {} ∧
      t.selfTest = none ∧ t.power.pendingEntry = none ∧ t.power.wake = none ∧ t.power.state = s.power.state ∧
      t.power.softReset.isSome = true ∧ t.comp.wheel = none ∧ t.comp.word = none ∧
      (∀ c ∈ t.comp.line, c.origin ≠ .unreleased) ∧ t.seq.state = .stopped ∧ t.comp.cursor = s.set.left ∧
      t.comp.vTarget = t.platen.position ∧ t.display.lit = true ∧ t.display.override = none ∧
      t.set = s.set ∧ t.slots = s.slots ∧ t.spell.user = s.spell.user ∧ t.spell.dict = s.spell.dict ∧
      t.spell.lastWord = s.spell.lastWord ∧
      t.seq.lastGroup = s.seq.lastGroup ∧ t.esc = s.esc ∧ t.pending = s.pending ∧ t.pins = s.pins ∧
      (∀ w ∈ t.spell.words, w.state ≠ .pending ∧ w.state ≠ .opened) ∧
      (s.power.state = .run → t.memory = s.memory ∧ t.platen.position = s.platen.position ∧
        t.linedUp s.memory.records []) ∧
      (s.hammer.state ≠ .on → s.hammer.state ≠ .rest → t.carriage.state = .homing ∧ t.carriage.after = .leftMargin ∧
        t.wheel.homing = some ⟨.softReset, none, if s.levels.closed then .search else .waiting⟩))

/-- O41. PAPER is BUSY in STARTING and STATE in STANDBY and SLEEP. In RUN it is BUSY unless the release stage is
EMPTY, the strike queue has room, no line is open and no fault is held. An accepted PAPER appends its order at the
left margin under a new group and replies with its id; the composition line is emptied, the current word closed, the
cursor goes to the left margin, and a load also sets the vertical target to 0 and the relocate point to the left
margin there. Where the rules leave it open the model's choices are logs 19, 33, 73. (R17, R66, R192) -/
def Obligations.PaperRequests : Prop :=
  ∀ s : State, s.hears → ∀ p ∈ [(Instr.paperLoad, OrderKind.paperLoad), (.paperEject, .paperEject)],
    let busy := s.seq.stageState ≠ .empty ∨ 32 ≤ s.seq.queue.length ∨ s.faults.x ≠ none ∨ s.faults.p ≠ none ∨
      ∃ c ∈ s.comp.line, c.origin = .unreleased
    (s.power.state = .starting → Refused p.1 s 0x5C [0x02]) ∧
    (s.power.state = .standby ∨ s.power.state = .sleep → Refused p.1 s 0x5C [0x04]) ∧
    (s.power.state = .run → busy → Refused p.1 s 0x5C [0x02]) ∧
    (s.power.state = .run → ¬ busy → NumbersOk s.seq → s.seq.stage = [] → ∃ t, exec p.1 s = .next t ∧
      t.answered 0x5C [0x00, byteOf s.groupId] ∧ t.seq.lastGroup = s.groupId ∧
      (∃ o, t.seq.queue.getLast? = some o ∧ o.number = s.seq.nextOrder ∧ o.kind = p.2 ∧ o.group = s.groupId ∧
        o.horizontal = s.set.left) ∧
      t.comp.line = [] ∧ t.comp.index = 0 ∧ t.comp.cursor = s.set.left ∧ t.comp.word = none ∧
      t.comp.bellRung = false ∧
      (p.2 = .paperLoad → t.comp.vTarget = 0 ∧ t.comp.relocateH = s.set.left ∧ t.comp.relocateV = 0) ∧
      (p.2 = .paperEject → t.comp.vTarget = s.comp.vTarget ∧ t.comp.relocateH = s.comp.relocateH ∧
        t.comp.relocateV = s.comp.relocateV) ∧
      Keeps (.cursor :: .vTarget :: .line :: .word :: .bellFlags :: .relocate :: .ids :: .words :: .port :: .window :: .openValues :: settleParts) s t)

/-- O42. While the conditions of R3 fail the head key waits. In DIRECT mode it is dropped with BELL(NO_WHEEL),
BELL(ABSENT), BELL(MARGIN) or BELL(LINE_FULL) by the first test that fails, with nothing else changed but margin
release at the margin test. A key that passes waits for an EMPTY release stage and room, and then appends one STRIKE
of group 0 with the glyph's petal, width, on-time and fires, places its QUEUED cell over what started there, and
moves the cursor. A letter's cell carries the current word; with none, the word of the cell that ends at the cursor,
which reopens; and otherwise a new word with the next id. There the bell is tested: it rings once for the line, from
the first position of the bell zone to the right margin. An underlined one has UNDER1, and UNDER2 when it is wider
than the underline glyph. Where the rules leave it open the model's choices are logs 12, 20, 27. (R2, R3, R4, R6,
R7, R8, R16, R27, R39, R40, R63) -/
def Obligations.PrintableKeys : Prop :=
  ∀ s : State, ∀ k rest, s.comp.keys = k :: rest → 0x21 ≤ k.code.toNat → k.code.toNat ≤ 0x7F →
    let x := s.comp.cursor
    let letter := (0x41 ≤ k.code.toNat ∧ k.code.toNat ≤ 0x5A) ∨ (0x61 ≤ k.code.toNat ∧ k.code.toNat ≤ 0x7A) ∨
      k.code = 0x27
    let parts := [Piece.keys, .cursor, .line, .word, .bellFlags, .relocate, .words, .port, .window] ++ settleParts
    let waits := ∃ t, exec .printableKey s = .next t ∧ t.comp = s.comp ∧ Keeps settleParts s t
    let drops := fun (b : Bell) (release : Bool) => ∃ t, exec .printableKey s = .next t ∧
      t.comp = { s.comp with keys := rest, composed := true, marginRelease := release } ∧
      (s.link.tx ≠ none → s.link.notices = [] → t.raised (.bell b)) ∧ Keeps (.keys :: .bellFlags :: settleParts) s t
    let release := s.comp.marginRelease
    let look := lookGlyph s.slots s.comp.wheel k.code
    (¬ s.composes → waits) ∧
    (s.composes → s.set.mode = .direct →
      (look = .noWheel → drops .noWheel release) ∧ (look = .absent → drops .absent release)) ∧
    (s.composes → ∀ p units cls w, look = .found p units cls w →
      let width := match s.set.pitch, w.pitch with
        | .p10, _ => 12
        | .p12, _ => 10
        | .p15, _ => 8
        | _, .p10 => 12
        | _, .p12 => 10
        | _, .p15 => 8
        | _, .ps => 2 * units
      let fits := x + width ≤ 1599 ∧ (x + width ≤ s.set.right ∨ release = true)
      let roomy := s.comp.line.length < 200 ∨ ∃ c ∈ s.comp.line, c.start = x
      let above := 1 ≤ (s.comp.relocateV - s.comp.vTarget).toNat ∧ (s.comp.relocateV - s.comp.vTarget).toNat ≤ 24
      let left := (s.comp.line.filter fun c => c.start < x).getLast?
      let joined := left.bind fun c => if c.start + c.width = x then c.word else none
      (s.set.mode = .direct → ¬ fits → drops .margin false) ∧
      (s.set.mode = .direct → fits → ¬ roomy → drops .lineFull release) ∧
      (s.set.mode = .direct → fits → roomy → s.seq.stageState ≠ .empty ∨ 32 ≤ s.seq.queue.length → waits) ∧
      (s.set.mode = .direct → fits → roomy → s.takesOrders 1 → NumbersOk s.seq → ∃ t, exec .printableKey s = .next t ∧
        t.comp.keys = rest ∧ t.comp.cursor = x + width ∧ t.comp.marginRelease = false ∧
        t.comp.index = (t.comp.line.filter fun c => c.start < x + width).length ∧
        (t.comp.line.filter fun c => c.start ≠ x) = (s.comp.line.filter fun c => c.start ≠ x) ∧
        (∃ c ∈ t.comp.line, c.start = x ∧ c.width = width ∧ c.content = .glyph k.code ∧ c.bold = k.bold ∧
          c.underline = k.underline ∧ c.origin = .queued s.seq.nextOrder ∧ c.word = t.comp.word) ∧
        (letter ↔ t.comp.word ≠ none) ∧
        (letter → t.comp.word = some (match s.comp.word, joined with
          | some w, _ => w
          | none, some w => w
          | none, none => s.spell.lastWord + 1)) ∧
        (letter → s.comp.word = none → ∃ v ∈ t.spell.words, t.comp.word = some v.id ∧ v.state = .opened) ∧
        (letter → s.comp.word = none → joined = none → t.spell.lastWord = s.spell.lastWord + 1) ∧
        (¬ letter ∨ s.comp.word ≠ none ∨ joined ≠ none → t.spell.lastWord = s.spell.lastWord) ∧
        BellTested s.comp.bellRung (x + width) s t ∧
        (¬ above → t.comp.relocateH = x + width ∧ t.comp.relocateV = s.comp.vTarget) ∧
        (above → t.comp.relocateH = s.comp.relocateH ∧ t.comp.relocateV = s.comp.relocateV) ∧
        (∃ o, t.seq.queue.getLast? = some o ∧ o.number = s.seq.nextOrder ∧ o.group = 0 ∧ o.horizontal = x ∧
          o.vertical = s.comp.vTarget ∧ ∃ f, o.kind = .strike f ∧ f.glyph = some k.code ∧ f.petal = some p ∧
          f.width = width ∧ f.bold = k.bold ∧ f.underline = k.underline ∧ f.word = t.comp.word ∧
          f.onTime = (s.set.energy.getD cls []).getD (s.set.impression - 1) 0 ∧
          let u := (underWidth s.set.pitch (some w)).getD 0
          let under := w.underlinePetal
          f.fires = ⟨.glyph, x, some p⟩ :: (if k.bold then [⟨.shadow, x + 1, some p⟩] else []) ++
            (if k.underline = true ∧ under ≠ none then
              ⟨.under1, x, under⟩ :: (if u < width then [⟨.under2, x + width - u, under⟩] else []) else [])) ∧
        Keeps (.ids :: parts) s t))

/-- O43. In DIRECT mode a plain space appends a MOVE to the cursor plus the space width, or changes the target of a
QUEUED tail MOVE of group 0, and places a space cell that refers to it; an underlined space appends a STRIKE without a
glyph. A space without room waits. It is dropped with BELL(NO_WHEEL), BELL(ABSENT), BELL(MARGIN), which disarms margin
release, or BELL(LINE_FULL) by the first test that fails. BACKSPACE moves to the start of the cell before the cursor
or back by the space width, to the left margin at most, and at or left of the margin does nothing. TAB moves to the
next tab stop or the right margin, at or past the margin only closes the word, and on an open line is dropped with
BELL(LINE_OPEN). The space and TAB test the bell where they take the cursor, and BACKSPACE does not. The relocate
point stays. Where the rules leave it open the model's choices are logs 12, 23, 24, 25. (R4, R6, R7, R8, R9, R10, R11,
R12, R19, R27) -/
def Obligations.SpaceBackspaceTab : Prop :=
  ∀ s : State, s.composes → ∀ k rest, s.comp.keys = k :: rest →
    let x := s.comp.cursor
    let slot := readySlot s.slots s.comp.wheel
    let width := match slot.map (·.pitch), s.set.pitch with
      | _, .p10 => 12
      | _, .p12 => 10
      | _, .p15 => 8
      | some .p10, _ => 12
      | some .p12, _ => 10
      | some .p15, _ => 8
      | some .ps, _ => 2 * (slot.map (·.space)).getD 0
      | none, _ => 12
    let petal := slot.bind (·.underlinePetal)
    let open' := ∃ c ∈ s.comp.line, c.origin = .unreleased
    let parts := [Piece.keys, .cursor, .line, .word, .bellFlags, .words, .port, .window] ++ settleParts
    let joins : Bool := match s.seq.queue.getLast? with
      | some o => o.kind = .move && o.group = 0 && o.state = .queued
      | none => false
    let roomy := fun (n : Nat) => s.seq.stageState = .empty ∧ s.seq.stage = [] ∧ s.seq.queue.length + n ≤ 32 ∧ NumbersOk s.seq
    let needs := if joins then 0 else 1
    let full := fun (n : Nat) => s.seq.stageState ≠ .empty ∨ (s.seq.queue.length ≤ 32 ∧ 32 < s.seq.queue.length + n)
    let waits := fun (i : Instr) => ∃ t, exec i s = .next t ∧ t.comp = s.comp ∧ Keeps settleParts s t
    let drops := fun (i : Instr) (b : Bell) (release : Bool) => ∃ t, exec i s = .next t ∧
      t.comp = { s.comp with keys := rest, composed := true, marginRelease := release } ∧
      (s.link.tx ≠ none → s.link.notices = [] → t.raised (.bell b)) ∧ Keeps (.keys :: .bellFlags :: settleParts) s t
    let moves := fun (i : Instr) (y : Nat) (cells : State → Prop) => ∃ t, exec i s = .next t ∧ t.comp.keys = rest ∧
      t.comp.cursor = y ∧ t.comp.word = none ∧ t.comp.marginRelease = s.comp.marginRelease ∧ cells t ∧
      (∃ o, t.seq.queue.getLast? = some o ∧ o.kind = .move ∧ o.group = 0 ∧ o.horizontal = y ∧
        (joins = false → o.number = s.seq.nextOrder)) ∧
      ((∀ o ∈ s.seq.queue, o.kind.name ≠ .lift) →
        t.seq.queue.length = s.seq.queue.length + needs) ∧
      Keeps (.ids :: parts) s t
    let quiet := fun (t : State) => t.comp.bellRung = s.comp.bellRung ∧
      (s.link.tx ≠ none → s.link.notices = [] → ¬ t.raised (.bell .approach))
    let release := s.comp.marginRelease
    (k.code = 0x20 → s.set.mode = .direct →
      let fits := x + width ≤ 1599 ∧ (x + width ≤ s.set.right ∨ release = true)
      let holds := s.comp.line.length < 200 ∨ ∃ c ∈ s.comp.line, c.start = x
      let orders := if k.underline then 1 else needs
      (slot = none → drops .space .noWheel release) ∧
      (slot ≠ none → k.underline = true → petal = none → drops .space .absent release) ∧
      (slot ≠ none → (k.underline = true → petal ≠ none) →
        (¬ fits → drops .space .margin false) ∧ (fits → ¬ holds → drops .space .lineFull release) ∧
        (fits → holds → full orders → waits .space) ∧
        (fits → holds → roomy orders →
          (k.underline = false → moves .space (x + width) fun t => ∃ c ∈ t.comp.line,
            c.start = x ∧ c.width = width ∧ c.content = .space ∧ c.word = none ∧
              (∃ o, t.seq.queue.getLast? = some o ∧ c.origin = .queued o.number) ∧
              BellTested s.comp.bellRung (x + width) s t) ∧
          (k.underline = true → ∃ t, exec .space s = .next t ∧
            t.comp.keys = rest ∧ t.comp.cursor = x + width ∧ t.comp.word = none ∧
            BellTested s.comp.bellRung (x + width) s t ∧
            (∃ c ∈ t.comp.line, c.start = x ∧ c.width = width ∧ c.content = .underlinedSpace ∧
              c.origin = .queued s.seq.nextOrder) ∧
            (∃ o, t.seq.queue.getLast? = some o ∧ o.number = s.seq.nextOrder ∧ o.group = 0 ∧ o.horizontal = x ∧
              ∃ f, o.kind = .strike f ∧ f.glyph = none ∧ f.underlinePetal = petal ∧ f.width = width) ∧
            Keeps (.ids :: parts) s t)))) ∧
    (k.code = 0x03 → ¬ open' →
      (x ≤ s.set.left → ∃ t, exec .backspace s = .next t ∧ t.comp = { s.comp with keys := rest, composed := true } ∧
        Keeps (.keys :: settleParts) s t) ∧
      (s.set.left < x → full needs → waits .backspace) ∧
      (s.set.left < x → roomy needs →
        (∀ c, (s.comp.line.filter fun d => d.start < x).getLast? = some c →
          moves .backspace (max s.set.left c.start) fun t => t.comp.line = s.comp.line ∧ quiet t) ∧
        ((∀ c ∈ s.comp.line, x ≤ c.start) →
          moves .backspace (max s.set.left (x - width)) fun t => t.comp.line = s.comp.line ∧ quiet t))) ∧
    (k.code = 0x04 →
      (open' → drops .tab .lineOpen release) ∧
      (¬ open' → s.set.right ≤ x → ∃ t, exec .tab s = .next t ∧ t.comp.keys = rest ∧ t.comp.cursor = x ∧
        t.comp.word = none ∧ Keeps (Piece.keys :: .word :: .words :: .port :: settleParts) s t) ∧
      (¬ open' → x < s.set.right → full needs → waits .tab) ∧
      (¬ open' → x < s.set.right → roomy needs → s.set.tabs.Pairwise (· < ·) →
        let stops := s.set.tabs.filter fun y => x < y ∧ y ≤ s.set.right
        let y := stops.head?.getD s.set.right
        moves .tab y fun t => t.comp.line = s.comp.line ∧ BellTested s.comp.bellRung y s t))

/-- O44. In LINE mode a printable key or a space that finds no open line starts one: every cell leaves, and the
cursor is at the left margin with the window at 0, even for a key then dropped. It makes an UNRELEASED cell and no
order; past 1599 it is dropped with BELL(MARGIN), with 200 cells with BELL(LINE_FULL). The bell is tested where it
takes the cursor; a wrap clears the bell-rung flag first. Past the right margin it wraps at the last gap behind a
printing cell: what stands before the gap is released as a line that is not final, the gap leaves, the cells behind
it begin the next line, and the key joins them or is dropped with BELL(MARGIN). A space releases everything up to
the line's trailing spaces, and is discarded. With nothing to split the key is dropped; while the release stage is
not EMPTY a wrap waits. BACKSPACE removes the last cell, whose word is current again. The release is of an empty
queue with spelling not HOLD, and fits in it. That a composed space leaves margin release armed and one dropped at
the margin disarms it is the model's choice (log 23). Where the rules leave it open the model's choices are logs 3,
12, 20, 21, 22, 23, 29, 72. (R3, R6, R7, R8, R9, R18, R19, R20, R21, R38, R40, R41) -/
def Obligations.LineModeKeys : Prop :=
  ∀ s : State, s.composes → ∀ k rest, s.comp.keys = k :: rest →
    let isOpen := s.comp.line.any fun c => c.origin = .unreleased
    let cells := if isOpen then s.comp.line else []
    let x := if isOpen then s.comp.cursor else s.set.left
    let release := s.comp.marginRelease
    let parts := [Piece.keys, .cursor, .line, .word, .bellFlags, .relocate, .words, .port, .window] ++ settleParts
    let bells := fun (b : Bell) (t : State) => s.link.tx ≠ none → s.link.notices = [] → t.raised (.bell b)
    let waits := fun (i : Instr) => ∃ t, exec i s = .next t ∧ t.comp = s.comp ∧ Keeps settleParts s t
    let drops := fun (i : Instr) (b : Bell) (armed : Bool) => ∃ t, exec i s = .next t ∧ t.comp.keys = rest ∧
      t.comp.line = cells ∧ t.comp.cursor = x ∧ t.comp.word = s.comp.word ∧ t.comp.marginRelease = armed ∧ bells b t ∧
      t.comp.bellRung = s.comp.bellRung ∧
      Keeps (.keys :: .cursor :: .line :: .bellFlags :: .window :: settleParts) s t
    let joins := fun (i : Instr) (c : Cell) (armed : Bool) (word : Prop) => ∃ t, exec i s = .next t ∧
      t.comp.keys = rest ∧ t.comp.line = cells ++ [{ c with word := t.comp.word }] ∧
      t.comp.cursor = x + c.width ∧ t.comp.index = cells.length + 1 ∧ (isOpen = false → t.display.window = 0) ∧
      t.comp.marginRelease = armed ∧ (t.comp.word ≠ none ↔ word) ∧
      BellTested s.comp.bellRung (x + c.width) s t ∧ Keeps parts s t
    let wraps := fun (i : Instr) (body : List Cell) (line : State → Prop) =>
      let placed := finishLine (placeLine s.set false body)
      s.seq.stageState = .empty → s.seq.stage = [] → s.seq.queue = [] → s.seq.groups = [] → s.set.spell ≠ .hold →
      s.carriage.state = .idle → (s.lineOrders placed.1).length ≤ 32 →
      ∃ t, exec i s = .next t ∧ t.comp.keys = rest ∧ t.comp.marginRelease = false ∧
      t.comp.vTarget = s.comp.vTarget + BitVec.ofNat 16 s.set.spacing ∧
      t.esc.current = placed.2.2 ∧ t.esc.accrued = s.esc.accrued.union placed.2.2 ∧ t.seq.lastGroup = s.groupId ∧
      t.seq.queue.map (fun o => (o.kind.name, o.horizontal, o.vertical, o.group)) = s.lineOrders placed.1 ∧
      t.seq.groups = [{ id := s.groupId, kind := .line, remaining := (s.lineOrders placed.1).length }] ∧ line t ∧
      Keeps (.vTarget :: .lineFlags :: .ids :: .openValues :: parts) s t
    (s.set.mode = .line → 0x21 ≤ k.code.toNat → k.code.toNat ≤ 0x7F →
      let letter := (0x41 ≤ k.code.toNat ∧ k.code.toNat ≤ 0x5A) ∨ (0x61 ≤ k.code.toNat ∧ k.code.toNat ≤ 0x7A) ∨
        k.code = 0x27
      let look := lookGlyph s.slots s.comp.wheel k.code
      (look = .noWheel → drops .printableKey .noWheel release) ∧ (look = .absent → drops .printableKey .absent release) ∧
      (∀ p units cls w, look = .found p units cls w →
        let width := glyphWidth s.set.pitch w units
        let fits := x + width ≤ s.set.right ∨ release = true
        let cell : Cell := { start := x, width := width, content := .glyph k.code, bold := k.bold
                             underline := k.underline, word := none, origin := .unreleased
                             under := underWidth s.set.pitch (some w) }
        0 < width → (∀ c ∈ cells, c.start < x) → cells.length ≤ 200 →
        (fits → 1599 < x + width → drops .printableKey .margin false) ∧
        (fits → x + width ≤ 1599 → cells.length = 200 → drops .printableKey .lineFull release) ∧
        (fits → x + width ≤ 1599 → cells.length < 200 → joins .printableKey cell false letter) ∧
        (¬ fits → (∀ c ∈ cells.dropWhile (fun c => c.content = .space), c.content ≠ .space) →
          drops .printableKey .margin false) ∧
        (¬ fits → ∀ body gap tail, cells = body ++ gap ++ tail → gap ≠ [] → (∀ c ∈ gap, c.content = .space) →
          (∀ c, body.getLast? = some c → c.content ≠ .space) → body ≠ [] → (∀ c ∈ tail, c.content ≠ .space) →
          (s.seq.stageState ≠ .empty → waits .printableKey) ∧
          ((∀ c ∈ tail, 0 < c.width) →
            let y := s.set.left + (tail.map (·.width)).sum
            wraps .printableKey body fun t => if y + width ≤ s.set.right ∧ y + width ≤ 1599 then
              t.comp.cursor = y + width ∧ (t.comp.word ≠ none ↔ letter) ∧ BellTested false (y + width) s t ∧
              t.comp.line = movedCells s.set.left tail ++ [{ cell with start := y, word := t.comp.word }]
            else t.comp.cursor = y ∧ t.comp.word = none ∧ t.comp.line = movedCells s.set.left tail ∧
              t.comp.bellRung = false ∧ bells .margin t)))) ∧
    (s.set.mode = .line → k.code = 0x20 →
      let slot := readySlot s.slots s.comp.wheel
      let body := (cells.reverse.dropWhile fun c => c.content = .space).reverse
      (slot = none → drops .space .noWheel release) ∧
      (∀ w, slot = some w →
        let width := spaceWidth s.set.pitch w
        let fits := x + width ≤ s.set.right ∨ release = true
        let cell : Cell := { start := x, width := width, content := if k.underline then .underlinedSpace else .space
                             bold := false, underline := k.underline, word := none, origin := .unreleased
                             under := underWidth s.set.pitch (some w) }
        let lacks := k.underline = true ∧ w.underlinePetal = none
        0 < width → (∀ c ∈ cells, c.start < x) → cells.length ≤ 200 →
        (lacks → drops .space .absent release) ∧
        (¬ lacks → fits → 1599 < x + width → drops .space .margin false) ∧
        (¬ lacks → fits → x + width ≤ 1599 → cells.length = 200 → drops .space .lineFull release) ∧
        (¬ lacks → fits → x + width ≤ 1599 → cells.length < 200 → joins .space cell release False) ∧
        (¬ lacks → ¬ fits → body = [] → drops .space .margin false) ∧
        (¬ lacks → ¬ fits → body ≠ [] →
          (s.seq.stageState ≠ .empty → waits .space) ∧
          wraps .space body fun t => t.comp.line = [] ∧ t.comp.cursor = s.set.left ∧ t.comp.word = none ∧ t.comp.bellRung = false))) ∧
    (k.code = 0x03 → isOpen = true → ∀ c, s.comp.line.getLast? = some c → ∃ t, exec .backspace s = .next t ∧
      t.comp.keys = rest ∧ t.comp.line = s.comp.line.dropLast ∧ t.comp.cursor = c.start ∧ t.comp.word = c.word ∧
      Keeps (.keys :: .cursor :: .line :: .word :: .words :: .port :: .window :: settleParts) s t)

/-- O45. With a line open and the release stage EMPTY, the printing cells that the release computation keeps become
the STRIKE orders of a new LINE group, left to right, followed by a RETURN to the left margin with the line spacing;
with BIDI on and the last target nearer to the line's end they stand right to left, and the closing order is a FEED.
Each STRIKE carries its cell's glyph, width, attributes and word, and has UNDER2 when its cell is wider than the
underline glyph was when it was composed. The flags of the computation replace the current flags and join the accrued
ones. When it cuts cells off, BELL(MARGIN) is raised and their words leave the checker's table. The cursor goes to the
left margin, the vertical target advances, and no UNRELEASED cell stays. The strike queue is empty before and the
group fits in it: its orders are in the strike queue at the end, or, with HOLD set and a word of the group PENDING or
SUSPECT by then, all in the release stage, which is HELD. Where the orders and the checker's tables stand as in every
run, every step keeps this: a HELD stage holds STRIKE, RETURN and FEED orders alone, such a word among its STRIKEs,
and has HOLD set; and while it stays HELD none of its orders moves. Where the rules leave it open the model's choices
are logs 3, 12, 29. (R20, R32, R38, R40, R41, R42, R43, R44, R63, R66, R147, R148) -/
def Obligations.LineRelease : Prop :=
  (∀ s t : State, OffOk s.toEngine → OrdersOk s.seq → SpellOk s.spell → HeldOk s.toEngine → step s = .next t →
    HeldOk t.toEngine ∧ (s.seq.stageState = .held → t.seq.stageState = .held → t.seq.stage = s.seq.stage)) ∧
  ∀ s : State, s.composes → s.seq.stageState = .empty → s.seq.stage = [] → s.seq.queue = [] →
    (s.set.spell = .hold → SpellOk s.spell) → s.seq.groups = [] → s.carriage.state = .idle → (∃ c ∈ s.comp.line, c.origin = .unreleased) →
    ∀ k rest, s.comp.keys = k :: rest →
    ∀ p ∈ [((0x01 : Byte), Instr.returnKey, false), (0x02, .paragraphReturn, true)], k.code = p.1 →
    let placed := finishLine (placeLine s.set p.2.2 (s.comp.line.filter fun c => c.origin = .unreleased))
    let orders := s.lineOrders placed.1
    orders.length ≤ 32 → ∃ t, exec p.2.1 s = .next t ∧ t.comp.keys = rest ∧
    t.comp.cursor = s.set.left ∧ t.comp.vTarget = s.comp.vTarget + BitVec.ofNat 16 s.set.spacing ∧
    t.comp.word = none ∧ t.comp.bellRung = false ∧ t.comp.marginRelease = false ∧
    (∀ c ∈ t.comp.line, c.origin ≠ .unreleased) ∧
    t.esc.current = placed.2.2 ∧ t.esc.accrued = s.esc.accrued.union placed.2.2 ∧ t.seq.lastGroup = s.groupId ∧
    (s.link.tx ≠ none → s.link.notices = [] → (t.raised (.bell .margin) ↔ placed.2.1 ≠ [])) ∧
    (∀ c ∈ placed.2.1, ∀ w ∈ t.spell.words, c.word ≠ some w.id) ∧
    (t.seq.queue ++ t.seq.stage).map (fun o => (o.kind.name, o.horizontal, o.vertical, o.group)) = orders ∧
    (let held := s.set.spell = .hold ∧ ∃ c ∈ placed.1, c.content ≠ .space ∧
      ∃ w ∈ t.spell.words, c.word = some w.id ∧ (w.state = .pending ∨ w.state = .suspect)
     (held → t.seq.stageState = .held ∧ t.seq.queue = []) ∧ (¬ held → t.seq.stageState = .empty ∧ t.seq.stage = [])) ∧
    (∀ c ∈ placed.1, c.content ≠ .space → ∃ o ∈ t.seq.queue ++ t.seq.stage, o.horizontal = c.start ∧ ∃ f, o.kind = .strike f ∧
      c.content = (match f.glyph with | some g => .glyph g | none => .underlinedSpace) ∧ f.width = c.width ∧ f.bold = c.bold ∧
      f.underline = c.underline ∧ f.word = c.word ∧ (∀ u, c.under = some u → c.underline = true → f.underlinePetal ≠ none →
        (.under1 ∈ f.fires.map (·.name) ∧ (.under2 ∈ f.fires.map (·.name) ↔ u < c.width)))) ∧
    t.seq.groups = [{ id := s.groupId, kind := .line, remaining := orders.length }] ∧
    Keeps (.keys :: .cursor :: .vTarget :: .line :: .word :: .bellFlags :: .relocate :: .lineFlags :: .ids :: .words :: .port :: .window :: .openValues :: settleParts) s t

/-- O46. The plain spaces before the first and behind the last printing cell are dropped, and all other cells keep
every field but start and width. They follow one another without space between them from the left margin, under RIGHT
from the left margin plus the extra space, and under CENTER from the left margin plus half of it; a line wider than
the measure starts at the left margin, with OVERSET. Each cell has its own width, but where JUSTIFY applies (a line
that is not final, with a gap, and no wider than the measure) each gap gets the quotient and its share of the
remainder. A quotient above three times the narrowest gap becomes that, with LOOSE and no remainder, and the line ends
short by what is left. A remainder sets INEXACT. LEADING gives its steps to the first gaps, TRAILING to the last,
SPREAD evenly, TRUNCATE to none. So a justified line that is neither LOOSE nor OVERSET ends at the right margin, less
the remainder under TRUNCATE. From the first cell that ends past 1599 on all cells are cut, with OVERSET, which
happens in no line that fits the measure. (R29, R30, R31, R32, R33, R34, R35, R36) -/
def Obligations.JustifiedLineFills : Prop :=
  ∀ (set : Settings) (final : Bool) (before line behind : List Cell), set.left + 120 ≤ set.right → set.right ≤ 1599 →
    (∀ c ∈ before ++ behind, c.content = .space) → (∀ c, line.head? = some c → c.content ≠ .space) →
    (∀ c, line.getLast? = some c → c.content ≠ .space) →
    let gaps := (line.filter fun c => c.content = .space).map (·.width)
    let g := gaps.length
    let w := (line.map (·.width)).sum
    let fits := w ≤ set.right - set.left
    let extra := set.right - set.left - w
    let limit := 3 * gaps.min?.getD 0
    let justified := set.align = .justify ∧ final = false ∧ 0 < g ∧ fits
    let loose := limit < extra / g
    let q := if loose then limit else extra / g
    let r := if loose then 0 else extra % g
    let share := fun (i : Nat) => match set.distribute with
      | .leading => if i ≤ r then 1 else 0
      | .trailing => if g - r < i then 1 else 0
      | .spread => i * r / g - (i - 1) * r / g
      | .truncate => 0
    let start := set.left + if ¬ fits then 0 else match set.align with
      | .right => extra
      | .center => extra / 2
      | .left => 0
      | .justify => 0
    let placed := placeLine set final (before ++ line ++ behind)
    let cut := finishLine placed
    placed.cells.map (fun c => { c with start := 0, width := 0 }) = line.map (fun c => { c with start := 0, width := 0 }) ∧
    (∀ i (c d : Cell), (line)[i]? = some c → (placed.cells)[i]? = some d →
      d.start = start + ((placed.cells.take i).map (·.width)).sum ∧
      d.width = c.width + if justified ∧ c.content = .space then
        q + share ((line.take (i + 1)).filter fun c => c.content = .space).length else 0) ∧
    placed.flags = { inexact := decide (justified ∧ r ≠ 0), loose := decide (justified ∧ loose), overset := decide (¬ fits) } ∧
    (placed.cells.map (·.width)).sum = (if ¬ justified then w else if loose then w + limit * g
      else if set.distribute = .truncate then set.right - set.left - r else set.right - set.left) ∧
    cut.1 ++ cut.2.1 = placed.cells ∧ (∀ c ∈ cut.1, c.start + c.width ≤ 1599) ∧
    (∀ c, cut.2.1.head? = some c → 1599 < c.start + c.width) ∧ (fits → cut.2.1 = []) ∧
    cut.2.2 = { placed.flags with overset := placed.flags.overset || !cut.2.1.isEmpty }

/-- O47. With no line open RETURN and PARAGRAPH_RETURN append a RETURN of group 0 to the left margin with the line
spacing, move the vertical target by it and the cursor to the left margin, clear the bell-rung flag and margin
release, and rebuild the line: at each start position the newest of the records and queued STRIKEs at the new vertical
target has its cell, with its content, width, attributes and word, up to 200. The vertical keys and RELOCATE are
dropped with BELL(LINE_OPEN) on an open line. Without one a vertical key appends one FEED of group 0 with the line
spacing, minus it, -4 or +4 steps, moves the vertical target by it, and leaves the cursor, the flags and the relocate
point. RELOCATE at its point does nothing; elsewhere it appends a FEED and a MOVE to the point where they differ, and
takes the cursor there. All but MARGIN_RELEASE, which arms margin release and does nothing else, close the word; a key
without room waits. Where the rules leave it open the model's choices are logs 12, 24, 33, 72. (R3, R4, R8, R13, R14,
R15, R16, R19) -/
def Obligations.LineAdvanceKeys : Prop :=
  ∀ s : State, s.composes → ∀ k rest, s.comp.keys = k :: rest →
    let open' := ∃ c ∈ s.comp.line, c.origin = .unreleased
    let dropped := fun (i : Instr) => ∃ t, exec i s = .next t ∧
      t.comp = { s.comp with keys := rest, composed := true } ∧
      (s.link.tx ≠ none → s.link.notices = [] → t.raised (.bell .lineOpen)) ∧ Keeps (.keys :: settleParts) s t
    let waits := fun (i : Instr) => ∃ t, exec i s = .next t ∧ t.comp = s.comp ∧ Keeps settleParts s t
    let blocked := s.seq.stageState ≠ .empty ∨ 32 ≤ s.seq.queue.length
    let H := s.comp.relocateH
    let V := s.comp.relocateV
    (¬ open' → ∀ p ∈ [((0x01 : Byte), Instr.returnKey), (0x02, .paragraphReturn)], k.code = p.1 →
      let v := s.comp.vTarget + BitVec.ofNat 16 s.set.spacing
      let above := 1 ≤ (V - s.comp.vTarget).toNat ∧ (V - s.comp.vTarget).toNat ≤ 24
      (blocked → waits p.2) ∧
      (s.takesOrders 1 → NumbersOk s.seq → ∃ t, exec p.2 s = .next t ∧ t.comp.keys = rest ∧
        t.comp.cursor = s.set.left ∧ t.comp.vTarget = v ∧ t.comp.bellRung = false ∧ t.comp.marginRelease = false ∧
        t.comp.word = none ∧ (¬ above → t.comp.relocateH = s.set.left ∧ t.comp.relocateV = v) ∧
        (above → t.comp.relocateH = H ∧ t.comp.relocateV = V) ∧
        (∃ o, t.seq.queue.getLast? = some o ∧ o.number = s.seq.nextOrder ∧ o.kind = .ret s.set.spacing ∧ o.group = 0 ∧
          o.horizontal = s.set.left ∧ o.vertical = v) ∧
        t.linedUp s.memory.records s.seq.queue ∧
        Keeps (.keys :: .cursor :: .vTarget :: .line :: .word :: .bellFlags :: .relocate :: .ids :: .words :: .port :: .window :: settleParts) s t)) ∧
    (open' → s.seq.stageState ≠ .empty → ∀ p ∈ [((0x01 : Byte), Instr.returnKey), (0x02, .paragraphReturn)],
      k.code = p.1 → waits p.2) ∧
    (∀ p ∈ [((0x06 : Byte), Instr.index, (s.set.spacing : Int)), (0x07, .reverseIndex, -(s.set.spacing : Int)),
        (0x08, .halfUp, -4), (0x09, .halfDown, 4)], k.code = p.1 →
      (open' → dropped p.2.1) ∧ (¬ open' → blocked → waits p.2.1) ∧
      (¬ open' → s.takesOrders 1 → NumbersOk s.seq → ∃ t, exec p.2.1 s = .next t ∧ t.comp.keys = rest ∧
        t.comp.vTarget = s.comp.vTarget + BitVec.ofInt 16 p.2.2 ∧ t.comp.word = none ∧
        t.linedUp s.memory.records s.seq.queue ∧
        (∃ o, t.seq.queue.getLast? = some o ∧ o.number = s.seq.nextOrder ∧ o.kind = .feed p.2.2 ∧ o.group = 0 ∧
          o.horizontal = s.comp.cursor ∧ o.vertical = t.comp.vTarget) ∧
        Keeps (.keys :: .vTarget :: .line :: .word :: .ids :: .words :: .port :: .window :: settleParts) s t)) ∧
    (k.code = 0x0D → (open' → dropped .relocate) ∧
      (¬ open' → s.comp.cursor ≠ H → s.comp.vTarget ≠ V → s.seq.stageState ≠ .empty ∨ 31 ≤ s.seq.queue.length → waits .relocate)) ∧
    (k.code = 0x0D → ¬ open' → s.comp.cursor = H → s.comp.vTarget = V → ∃ t, exec .relocate s = .next t ∧
      t.comp = { s.comp with keys := rest, composed := true } ∧ Keeps (.keys :: settleParts) s t) ∧
    (k.code = 0x0D → ¬ open' → s.comp.cursor ≠ H ∨ s.comp.vTarget ≠ V → s.takesOrders 2 → NumbersOk s.seq →
      ∃ t, exec .relocate s = .next t ∧ t.comp.keys = rest ∧ t.comp.cursor = H ∧ t.comp.vTarget = V ∧
      t.comp.word = none ∧ (s.comp.vTarget = V → t.comp.line = s.comp.line) ∧
      (s.comp.vTarget ≠ V → t.linedUp s.memory.records s.seq.queue) ∧
      (s.comp.vTarget ≠ V → (∃ o ∈ t.seq.queue, o.number = s.seq.nextOrder ∧ o.group = 0 ∧
        o.kind = .feed (V - s.comp.vTarget).toInt)) ∧
      (s.comp.cursor ≠ H → ∃ o, t.seq.queue.getLast? = some o ∧ o.kind = .move ∧ o.group = 0 ∧ o.horizontal = H) ∧
      Keeps (.keys :: .cursor :: .vTarget :: .line :: .word :: .ids :: .words :: .port :: .window :: settleParts) s t) ∧
    (k.code = 0x05 → ∃ t, exec .marginRelease s = .next t ∧
      t.comp = { s.comp with keys := rest, composed := true, marginRelease := true } ∧
      Keeps (.keys :: .bellFlags :: settleParts) s t)

/-- O48. On an open line CORRECT removes the last cell and makes its word the current word, CORRECT_LINE removes every
cell and every word of them, and CORRECT_WORD removes the trailing spaces and then the last word with what stands
after it; the cursor goes to the start of the first cell removed, and no order is made. On paper CORRECT with no cell
before the cursor gives BELL(NOT_REMEMBERED); it removes a plain space without an order, withdraws a QUEUED or
PREPARED STRIKE with its cell, and makes a LIFT in a new CORRECTION group for a remembered character struck with the
composition wheel. Where the rules leave it open the model's choices are logs 12, 25, 26, 32, 82. (R19, R114, R115,
R118, R119, R121, R124) -/
def Obligations.CorrectionKeys : Prop :=
  ∀ s : State, s.composes → ∀ k rest, s.comp.keys = k :: rest →
    let line := s.comp.line
    let open' := ∃ c ∈ line, c.origin = .unreleased
    let body := (line.reverse.dropWhile fun c => c.content = .space).reverse
    let parts := [Piece.keys, .cursor, .line, .word, .words, .port, .window] ++ settleParts
    let cut := fun (i : Instr) (kept : List Cell) (words : State → Prop) => ∃ t, exec i s = .next t ∧
      t.comp.keys = rest ∧ t.comp.line = kept ∧ (∀ c, (line)[kept.length]? = some c → t.comp.cursor = c.start) ∧
      words t ∧ Keeps parts s t
    let before := (line.filter fun c => c.start < s.comp.cursor).getLast?
    let alone := fun (x : Nat) => (∀ o ∈ s.seq.queue, o.kind.name = .strike → o.vertical = s.comp.vTarget → o.horizontal ≠ x)
    let bare := fun (x : Nat) => ∀ r ∈ s.memory.records, r.vertical = s.comp.vTarget → r.horizontal ≠ x
    (k.code = 0x0A → open' → cut .correct line.dropLast fun t =>
      ∀ c, line.getLast? = some c → c.word ≠ none → t.comp.word = c.word) ∧
    (k.code = 0x0C → open' → cut .correctLine [] fun t => t.comp.word = none ∧
      ∀ c ∈ line, ∀ w ∈ t.spell.words, c.word ≠ some w.id) ∧
    (k.code = 0x0B → open' →
      ((∀ c ∈ line, c.word = none) → cut .correctWord body fun t => t.comp.word = s.comp.word) ∧
      (∀ kept word after, body = kept ++ word ++ after → word ≠ [] → (∀ c ∈ after, c.word = none) →
        ∀ id, (∀ c ∈ word, c.word = some id) → (∀ c, kept.getLast? = some c → c.word ≠ some id) →
        cut .correctWord kept fun t => t.comp.word = none ∧ ∀ w ∈ t.spell.words, w.id ≠ id)) ∧
    (k.code = 0x0A → ¬ open' → s.seq.stageState = .empty → s.seq.stage = [] →
      (before = none → ∃ t, exec .correct s = .next t ∧ t.comp.keys = rest ∧ t.comp.line = line ∧
        t.comp.cursor = s.comp.cursor ∧ t.comp.word = none ∧
        (s.link.tx ≠ none → s.link.notices = [] → t.raised (.bell .notRemembered)) ∧
        Keeps (Piece.keys :: .word :: .words :: .port :: settleParts) s t) ∧
      (∀ c, before = some c →
        (c.content = .space → ∃ t, exec .correct s = .next t ∧ t.comp.keys = rest ∧
          t.comp.line = (line.filter fun d => d.start ≠ c.start) ∧ t.comp.cursor = c.start ∧ t.comp.word = none ∧
          Keeps parts s t) ∧
        (c.content ≠ .space → OrdersOk s.seq → bare c.start → ∀ o ∈ s.seq.queue, o.kind.name = .strike →
          o.vertical = s.comp.vTarget → o.horizontal = c.start → o.state ≠ .executing →
          (∀ q ∈ s.seq.queue, q.kind.name = .strike → q.vertical = s.comp.vTarget → q.horizontal = c.start → q = o) →
          ∃ t, exec .correct s = .next t ∧ t.comp.keys = rest ∧ (∀ q ∈ t.seq.queue, q.number ≠ o.number) ∧
          t.comp.line = (line.filter fun d => d.start ≠ c.start) ∧ t.comp.cursor = c.start ∧ Keeps parts s t) ∧
        (c.content ≠ .space → OrdersOk s.seq → GroupsOk s.seq → alone c.start → s.seq.queue.length < 32 → ∀ r ∈ s.memory.records,
          r.vertical = s.comp.vTarget → r.horizontal = c.start → s.comp.wheel = some r.wheel →
          (∀ q ∈ s.memory.records, q.vertical = s.comp.vTarget → q.horizontal = c.start → q = r) →
          (∀ q ∈ s.seq.queue, q.kind ≠ .lift (.record r.slot)) → (∀ q ∈ s.memory.records, q.slot = r.slot → q = r) →
          ∃ t, exec .correct s = .next t ∧ t.comp.keys = rest ∧ t.seq.lastGroup = s.groupId ∧
          (∃ o, t.seq.queue.getLast? = some o ∧ o.number = s.seq.nextOrder ∧ o.kind = .lift (.record r.slot) ∧
            o.group = s.groupId ∧ o.horizontal = c.start) ∧
          t.comp.line = (line.filter fun d => d.start ≠ c.start) ∧ t.comp.cursor = c.start ∧
          Keeps (.ids :: parts) s t)))

/-- O49. On paper, with the release stage EMPTY: CORRECT reaches the STRIKEs and records at the position of the cell
before the cursor. CORRECT_WORD first takes the plain spaces before the cursor away; it reaches those of the next
cell's word from the start of the word run's first cell to that of its last, or acts as CORRECT on a cell without a
word. CORRECT_LINE reaches all from the left margin to the cursor, at the positions, from the highest down, whose
LIFTs come to at most 201, or at the highest alone, with its 201 newest records. Records that a LIFT refers to already
are left out. What is reached is disposed of as Disposes says, also while a STRIKE executes that the key does not
reach: one of another word than CORRECT_WORD's does not keep a cell at its place from ringing BELL(NOT_REMEMBERED).
With no cell, STRIKE or record to reach the key rings BELL(NOT_REMEMBERED). An executing STRIKE that CORRECT reaches
gets a LIFT: bound to it before its first fire, and of its record after; with another wheel mounted the key is dropped
with BELL(WHEEL). Where the rules leave it open the model's choices are logs 12, 30, 31, 32, 88, 100, 102. (R83, R114,
R115, R116, R117, R118, R119, R120, R121, R122, R123, R124) -/
def Obligations.PaperCorrections : Prop :=
  ∀ s : State, s.composes → OrdersOk s.seq → GroupsOk s.seq → MemoryOk s.memory → s.seq.stageState = .empty →
    s.comp.line.Pairwise (fun c d => c.start < d.start) →
    (∀ c ∈ s.comp.line, c.origin ≠ .unreleased ∧ (c.content = .space → c.word = none)) →
    ∀ k keys, s.comp.keys = k :: keys →
    let line := s.comp.line
    let left := line.filter fun c => c.start < s.comp.cursor
    let strikes := fun (P : Nat → Option WordId → Bool) => s.seq.queue.filter fun o =>
      o.kind.name = .strike ∧ o.vertical = s.comp.vTarget ∧ P o.horizontal o.word = true
    let records := fun (P : Nat → Option WordId → Bool) => s.memory.records.filter fun r =>
      r.vertical = s.comp.vTarget ∧ P r.horizontal r.word = true
    let fresh := fun (rs : List Record) => rs.filter fun r => ∀ o ∈ s.seq.queue, o.kind ≠ .lift (.record r.slot)
    let apart := fun (P : Nat → Option WordId → Bool) => (∀ o, s.executing = some o → o ∉ strikes P) ∧
      ∀ o ∈ s.seq.queue, ∀ ref, o.kind = .lift ref → ref ∈ s.memory.records.map fun r => .record r.slot
    let nothing := fun (i : Instr) (cells : List Cell) (x : Nat) => ∃ t, exec i s = .next t ∧ t.comp.keys = keys ∧
      t.comp.line = cells ∧ t.comp.cursor = x ∧ t.comp.word = none ∧
      (s.link.tx ≠ none → s.link.notices = [] → t.raised (.bell .notRemembered)) ∧
      Keeps (.keys :: .cursor :: .line :: .word :: .words :: .port :: .window :: settleParts) s t
    (k.code = 0x0A → ∀ c, left.getLast? = some c → c.content ≠ .space →
      let here := fun (h : Nat) (_ : Option WordId) => decide (h = c.start)
      (apart here → (fresh (records here)).length ≤ 201 →
        Disposes .correct (strikes here) (records here) (fresh (records here)) (fun d => d.start = c.start) s) ∧
      (∀ o, s.executing = some o → strikes here = [o] → (∀ q ∈ s.seq.queue, q.kind.name ≠ .lift) →
        (o.record = none → o.fired = [] ∧ records here = []) →
        (∀ slot, o.record = some slot → ∃ r ∈ s.memory.records, r.slot = slot ∧ records here = [r] ∧
          s.comp.wheel = some r.wheel) →
        (s.wheel.mounted ≠ s.comp.wheel → ∃ t, exec .correct s = .next t ∧
          t.comp = { s.comp with keys := keys, composed := true } ∧
          (s.link.tx ≠ none → s.link.notices = [] → t.raised (.bell .wheel)) ∧ Keeps (.keys :: settleParts) s t) ∧
        (s.wheel.mounted = s.comp.wheel → s.seq.queue.length < 32 → ∃ t, exec .correct s = .next t ∧
          t.comp.line = (line.filter fun d => d.start ≠ c.start) ∧ t.comp.cursor = c.start ∧
          (∀ q ∈ s.seq.queue, q.number ∈ t.seq.queue.map (·.number)) ∧
          (∃ q, t.seq.queue.getLast? = some q ∧ q.number = s.seq.nextOrder ∧ q.group = s.groupId ∧
            q.horizontal = c.start ∧ q.vertical = s.comp.vTarget ∧
            q.kind = .lift (match o.record with | some slot => .record slot | none => .bound o.number)) ∧
          Keeps (.ids :: .keys :: .cursor :: .line :: .word :: .words :: .port :: .window :: settleParts) s t))) ∧
    (k.code = 0x0B →
      let spaces := (left.reverse.takeWhile fun c => c.content = .space).reverse
      let body := (left.reverse.dropWhile fun c => c.content = .space).reverse
      let rest := line.filter fun c => c ∉ spaces
      (body = [] → nothing .correctWord rest ((spaces.head?.map (·.start)).getD s.comp.cursor)) ∧
      (∀ c, body.getLast? = some c →
        let here := fun (h : Nat) (_ : Option WordId) => decide (h = c.start)
        (c.word = none → apart here → (fresh (records here)).length ≤ 201 →
          Disposes .correctWord (strikes here) (records here) (fresh (records here))
            (fun d => d.start = c.start || d ∈ spaces) s) ∧
        (∀ id, c.word = some id → ∀ pre run post, rest = pre ++ run ++ post → c ∈ run → (∀ d ∈ run, d.word = some id) →
          (∀ d, pre.getLast? = some d → d.word ≠ some id) → (∀ d, post.head? = some d → d.word ≠ some id) →
          ∀ a, run.head? = some a → ∀ b, run.getLast? = some b →
          let inside := fun (h : Nat) (w : Option WordId) => decide (a.start ≤ h ∧ h ≤ b.start ∧ w = some id)
          apart inside → (fresh (records inside)).length ≤ 201 →
          Disposes .correctWord (strikes inside) (records inside) (fresh (records inside))
            (fun d => d ∈ run || d ∈ spaces) s))) ∧
    (k.code = 0x0C →
      let inside := fun (h : Nat) (_ : Option WordId) => decide (s.set.left ≤ h ∧ h < s.comp.cursor)
      let cells := line.filter fun c => inside c.start none
      let reached := fresh (records inside)
      let all := cells.map (·.start) ++ (strikes inside).map (·.horizontal) ++ reached.map (·.horizontal)
      let taken := fun (h : Nat) => decide ((reached.filter fun r => h ≤ r.horizontal).length ≤ 201 ∨ ∀ y ∈ all, y ≤ h)
      let recs := reached.filter fun r => taken r.horizontal
      if cells = [] ∧ strikes inside = [] ∧ records inside = [] then nothing .correctLine line s.comp.cursor
      else apart inside → Disposes .correctLine ((strikes inside).filter fun o => taken o.horizontal) (records inside)
        (recs.drop (recs.length - 201)) (fun c => inside c.start none && taken c.start) s)

/-- O50. ORDER_START makes a PREPARED head MOVE EXECUTING while the sequencer is RUNNING with no fault, and starts the
carriage toward its target, clamped to 1599, with a 6000 µs timer; while PAUSED, FAULTED or with a head not PREPARED
nothing starts. CARRIAGE_MOVE_END leaves the carriage IDLE at the target, and completes an executing MOVE to it: the
order leaves the queue, the print point is that place, its cells are ON_PAPER. An edge restarts the timer of a
carriage under way, and nothing else. The timer's expiry, and HOME_STEP_LIMIT in the part to the right, leave the
carriage LOST with CARRIAGE_STALL, the limit with the counter 48 steps on; an executing order gives the fault its
fields and stays EXECUTING, and the held failure of the order behind it goes to the P slot with it. In a homing,
whatever it is for and with an executing order too, the inactive flag ends the part to the right, and the active flag
sets the counter to 0 and starts the move that follows, or ends RESUME's. A failed homing of RESUME is an X fault of
the head order, and one of the self-test its result. A stall with no order executing, of a motion of an order, is
written with order kind none (log 98), and the left margin is read when the flag is found (log 53). Where the rules
leave it open the model's choices are logs 3, 11, 37, 53, 68, 95, 98. (R68, R70, R75, R76, R77, R87, R88, R89, R171,
R176) -/
def Obligations.OrderStartAndCarriage : Prop :=
  ∀ s : State, OrdersOk s.seq →
    let c := s.carriage
    (s.aside →
    (∀ o rest, s.seq.queue = o :: rest →
      (o.state = .prepared → o.kind = .move → s.power.state = .run → s.faults.x = none → s.faults.p = none →
        s.seq.state = .running → s.seq.pausePending = false → s.quiet → c.state = .idle →
        c.position ≠ min 1599 o.horizontal → ∃ t, exec .orderStart s = .next t ∧
        t.seq.queue.head? = some { o with state := .executing, phase := .start, copy := none } ∧
        t.seq.viewTimer = none ∧
        t.carriage = { c with state := .moving, target := min 1599 o.horizontal, use := .order, timer := some 6000 } ∧
        Keeps (.carriage :: settleParts) s t) ∧
      (o.state = .queued ∨ s.seq.state ≠ .running → s.executing = none → ∃ t, exec .orderStart s = .next t ∧
        (∀ p ∈ t.seq.queue, p.state ≠ .executing) ∧ Keeps settleParts s t)) ∧
    (c.state = .moving → c.use = .order →
      (s.executing = none → ∃ t, exec .carriageMoveEnd s = .next t ∧
        t.carriage = { c with state := .idle, position := c.target, timer := none } ∧
        Keeps (.carriage :: settleParts) s t) ∧
      (∀ o, s.executing = some o → o.kind = .move → c.target = min 1599 o.horizontal → s.faults.x = none →
        s.faults.p = none → ∃ t, exec .carriageMoveEnd s = .next t ∧
        t.carriage = { c with state := .idle, position := c.target, timer := none } ∧
        t.seq.printPoint = c.target ∧ (∀ p ∈ t.seq.queue, p.number ≠ o.number) ∧
        t.comp.line = (s.comp.line.map fun d =>
          if d.origin = .queued o.number then { d with origin := .onPaper o.record } else d) ∧
        Keeps (.carriage :: .ink :: .line :: settleParts) s t)) ∧
    (∃ t, exec .carriageEncoderEdge s = .next t ∧
      t.carriage = (if c.state = .moving ∨ c.state = .homing then { c with timer := some 6000 } else c) ∧
      Keeps [.carriage] s t) ∧
    (c.use = .order → s.executing = none →
      (c.state = .moving ∨ c.state = .homing → ∃ t, exec .carriageMotionTimerExpiry s = .next t ∧
        t.carriage.state = .lost ∧ t.carriage.timer = none ∧ WritesFault .carriageStall none s t ∧
        Keeps (.carriage :: .openValues :: settleParts) s t) ∧
      (c.state = .homing → c.rightwards = true →
        (∃ t, exec .homeStepLimit s = .next t ∧ t.carriage.state = .lost ∧
          (c.start + 48 ≤ 1599 → t.carriage.position = c.start + 48) ∧ WritesFault .carriageStall none s t ∧
          Keeps (.carriage :: .openValues :: settleParts) s t) ∧
        (∃ t, exec (.homeFlagChange false) s = .next t ∧ t.carriage.state = .homing ∧ t.carriage.rightwards = false ∧
          t.pins.home = false ∧ Keeps (.carriage :: .pins :: .openValues :: settleParts) s t)) ∧
      (c.state = .homing → c.rightwards = false → ∃ t, exec (.homeFlagChange true) s = .next t ∧ t.pins.home = true ∧
        (c.after = .stay → t.carriage = { c with state := .idle, position := 0, timer := none }) ∧
        (∀ x, c.after = .to x → 0 < x → t.carriage =
          { c with state := .moving, position := 0, target := min 1599 x, timer := some 6000 }) ∧
        (c.after = .leftMargin → 0 < s.set.left → t.carriage =
          { c with state := .moving, position := 0, target := min 1599 s.set.left, timer := some 6000 }) ∧
        Keeps (.carriage :: .pins :: settleParts) s t)) ∧
    (c.use = .order → s.faults.x = none → s.faults.p = none → ∀ o, s.executing = some o →
      let stalls := fun (i : Instr) => ∃ t, exec i s = .next t ∧ t.carriage.state = .lost ∧ t.carriage.timer = none ∧
        WritesOrderFault .carriageStall o s t ∧ t.seq.queue.head? = some o ∧
        (∀ p, s.seq.queue.tail.head? = some p → s.lasts p → p.copy = none → ∀ k, s.failure p = some k →
          p.held = some k → p.heldWritten = false → WritesHeld k p s t) ∧
        Keeps (.carriage :: .openValues :: settleParts) s t
      (c.state = .moving ∨ c.state = .homing → stalls .carriageMotionTimerExpiry) ∧
      (c.state = .homing → c.rightwards = true → stalls .homeStepLimit))) ∧
    (s.staysOn → c.state = .homing →
      (c.rightwards = true →
        (∃ t, exec (.homeFlagChange false) s = .next t ∧ t.carriage.state = .homing ∧ t.carriage.rightwards = false ∧
          t.carriage.use = c.use ∧ t.carriage.after = c.after ∧ t.pins.home = false ∧ Keeps mechanismParts s t) ∧
        (∃ t, exec (.homeFlagChange true) s = .next t ∧ t.carriage = c ∧ t.pins.home = true ∧ Keeps mechanismParts s t)) ∧
      (c.rightwards = false →
        (∃ t, exec (.homeFlagChange false) s = .next t ∧ t.carriage = c ∧ t.pins.home = false ∧ Keeps mechanismParts s t) ∧
        (∀ x, c.after = .to x ∨ (c.after = .leftMargin ∧ x = s.set.left) → 0 < x →
          ∃ t, exec (.homeFlagChange true) s = .next t ∧ t.pins.home = true ∧ Keeps mechanismParts s t ∧
          t.carriage = { c with state := .moving, position := 0, target := min 1599 x, timer := some 6000 }) ∧
        (c.after = .stay → c.use = .resume → s.executing = none → s.selfTest = none →
          ∃ t, exec (.homeFlagChange true) s = .next t ∧ t.pins.home = true ∧ t.seq.recovery.carriage = false ∧
          t.carriage = { c with state := .idle, position := 0, timer := none } ∧ Keeps mechanismParts s t))) ∧
    (s.staysOn → s.power.softReset = none → s.executing = none → ∀ i, c.failsAt i = true →
      (c.use = .resume → s.selfTest = none → ∃ t, exec i s = .next t ∧ t.carriage.state = .lost ∧
        t.seq.recovery.carriage = false ∧ (s.seq.queue = [] → WritesFault .carriageStall none s t) ∧
        (∀ o rest, s.seq.queue = o :: rest → WritesOrderFault .carriageStall o s t) ∧ Keeps mechanismParts s t) ∧
      (c.use = .selfTest → s.seq.recovery = {} → ∀ k, s.selfTest = some k → k.step = 2 →
        ∃ t, exec i s = .next t ∧ t.carriage.state = .lost ∧ (∃ n, t.selfTest = some n ∧ 2 ∈ n.failed) ∧
        t.faults.x = s.faults.x ∧ Keeps mechanismParts s t)) ∧
    (s.staysOn → c.state = .homing → c.rightwards = true → ∃ t, exec .homeStepLimit s = .next t ∧
      t.carriage.position = min 1599 (c.start + 48))

/-- O51. A rotation that settles leaves the wheel SETTLED on its target petal; one whose timer expires leaves it
UNKNOWN with WHEEL_STALL, of the executing order, which stays EXECUTING, when there is one. With the next fire's
petal reached, the order waits for its carriage or fires. In every homing the index mark ends the search and starts
the reading, each code mark gives one bit, 1 if it is 1.5 times as wide as the index mark or wider, most significant
first, and the eighth starts the rotation to petal 0 unless the code is 0 or 255. A second index mark, 2 revolutions
without a mark, the codes 0 and 255 and a timed-out rotation fail it: the wheel is UNKNOWN with no mounted wheel,
WHEEL(FAILED) is raised, and the fault is the executing order's, the strike queue's head order's in RESUME's
recovery (no order's with an empty queue, R171), and the self-test's result in a test; a test whose step 3 waits for
a homing then starts its own. At rest on petal 0 the wheel is mounted, adopted or mismatched. RECOVERY_HOMING_START
starts a search under the conditions of R61. WHEEL(FAILED) carries no id, after a code was read too (log 93); a
rotation's stall with no order executing has order kind none (log 98); that the waiting step 3 goes on with its own
homing is log 55. Where the rules leave it open the model's choices are logs 11, 54, 55, 68, 74, 85, 93, 98. (R55,
R56, R61, R72, R76, R90, R91, R92, R93, R171, R172, R176) -/
def Obligations.WheelEvents : Prop :=
  ∀ (s : State) (width : Nat), OrdersOk s.seq →
    (s.aside →
    (∀ o, s.executing = some o → s.faults.x = none → s.faults.p = none → s.wheel.state = .rotating →
      (let fires : List Fire := match o.kind with
        | .strike f => f.fires
        | _ => (o.copy.map (·.fires)).getD []
       let left := fires.filter fun x => x.name ∉ o.fired
       let place : LiftTarget := if o.kind.name = .lift then .correct else .print
       o.kind.name = .strike ∨ o.kind.name = .lift → ∀ x more, left = x :: more → x.petal = some s.wheel.target →
        ∃ t, exec .wheelSettled s = .next t ∧
        t.wheel = { s.wheel with state := .settled, petal := x.petal, timer := none, found := t.wheel.found } ∧
        (s.carriage.state = .moving → t.hammer = s.hammer ∧ t.seq.queue.head? = some o) ∧
        (s.carriage.state = .idle → s.carriage.position = x.position → x.position ≤ 1599 → s.lift.state = .held place →
          s.platen.state ≠ .feeding → s.levels.closed = true → s.hammer.state = .ready → s.seq.liftToView = false →
          t.hammer.state = .on ∧
          ∃ p, t.seq.queue.head? = some p ∧ p.number = o.number ∧ p.fired = o.fired ++ [x.name]) ∧
        Keeps (.wheel :: .carriage :: .hammer :: .pins :: .memory :: .line :: settleParts) s t) ∧
      ∃ t, exec .wheelRotationTimerExpiry s = .next t ∧ t.wheel.state = .unknown ∧ t.wheel.petal = none ∧
      t.wheel.mounted = s.wheel.mounted ∧ WritesOrderFault .wheelStall o s t ∧ t.seq.queue.head? = some o ∧
      Keeps (.wheel :: settleParts) s t) ∧
    (s.executing = none →
    let w := s.wheel
    let nothing := fun (i : Instr) => ∃ t, exec i s = .next t ∧ Keeps settleParts s t
    let fails := fun (i : Instr) (r : Option Nat) => ∃ t, exec i s = .next t ∧
      t.wheel.state = .unknown ∧ t.wheel.petal = none ∧ t.wheel.mounted = none ∧ t.wheel.homing = none ∧
      (s.link.tx ≠ none → s.link.notices = [] → t.raised (.wheel .recovery .failed none r)) ∧
      Keeps (.wheel :: settleParts) s t
    let goesOn := fun (i : Instr) (r : Option Nat) (p : HomingPhase) => ∃ t, exec i s = .next t ∧
      t.wheel.state = .homing ∧ t.wheel.mounted = w.mounted ∧ (∃ u, t.wheel.homing = some ⟨u, r, p⟩) ∧
      Keeps (.wheel :: settleParts) s t
    (w.state = .rotating →
      (∃ t, exec .wheelSettled s = .next t ∧ t.wheel.state = .settled ∧ t.wheel.petal = some w.target ∧
        t.wheel.timer = none ∧ t.wheel.mounted = w.mounted ∧ Keeps (.wheel :: settleParts) s t) ∧
      (∃ t, exec .wheelRotationTimerExpiry s = .next t ∧ t.wheel.state = .unknown ∧ t.wheel.petal = none ∧
        t.wheel.mounted = w.mounted ∧ WritesFault .wheelStall none s t ∧ Keeps (.wheel :: settleParts) s t)) ∧
    (w.state = .settled → nothing .wheelSettled ∧ nothing .wheelRotationTimerExpiry ∧ nothing (.indexMark width) ∧
      nothing (.codeMark width) ∧ nothing .wheelSearchLimit) ∧
    (w.state = .homing → ∀ h, w.homing = some h → h.use = .cover ∨ h.use = .recovery →
      (h.phase = .search → goesOn (.indexMark width) h.required (.read width []) ∧
        fails .wheelSearchLimit h.required ∧ nothing (.codeMark width)) ∧
      (∀ index bits, h.phase = .read index bits →
        let bit := decide (3 * index ≤ 2 * width)
        let code := codeRead index bits width
        fails (.indexMark width) h.required ∧ nothing .wheelSearchLimit ∧
        (bits.length < 7 → goesOn (.codeMark width) h.required (.read index (bits ++ [bit]))) ∧
        (bits.length = 7 → code = 0 ∨ code = 255 → fails (.codeMark width) h.required) ∧
        (bits.length = 7 → 0 < code → code < 255 → ∃ t, exec (.codeMark width) s = .next t ∧
          t.wheel.homing = some { h with phase := .park code } ∧ t.wheel.target = 0 ∧
          t.wheel.timer = some 40000 ∧ Keeps (.wheel :: settleParts) s t)) ∧
      (∀ code, h.phase = .park code →
        let outcome := h.ends code (decide (s.seq.queue = [] ∧ s.seq.stage = []))
        (∃ t, exec .wheelSettled s = .next t ∧ t.wheel.state = .settled ∧ t.wheel.petal = some 0 ∧
          t.wheel.mounted = some code ∧ t.wheel.homing = none ∧
          (outcome = .mounted → s.comp.wheel = none ∨ s.seq.queue = [] → t.comp.wheel = some code) ∧
          (outcome = .adopted → t.comp.wheel = some code) ∧
          (outcome = .mismatch → t.comp.wheel = s.comp.wheel ∧
            (s.faults.x = none → s.faults.p = none → ∃ f, t.faults.x = some f ∧ f.kind = .wheelMismatch ∧
              f.required = h.required)) ∧
          (s.link.tx ≠ none → s.link.notices = [] → t.raised (.wheel .recovery outcome (some code) h.required)) ∧
          Keeps (.wheel :: .compWheel :: settleParts) s t) ∧
        (∃ t, exec .wheelRotationTimerExpiry s = .next t ∧ t.wheel.state = .unknown ∧ t.wheel.mounted = none ∧
          t.wheel.homing = none ∧ Keeps (.wheel :: settleParts) s t))) ∧
    (s.comp.wheel = none → s.power.state = .run → s.faults.x = none → s.faults.p = none → w.homing = none →
      s.seq.queue = [] → s.levels.closed = true → w.recoveryFailed = false →
      ∃ t, exec .recoveryHomingStart s = .next t ∧ t.wheel.state = .homing ∧
        t.wheel.homing = some ⟨.recovery, none, .search⟩ ∧ Keeps (.wheel :: settleParts) s t) ∧
    (s.comp.wheel ≠ none → w.lostByTest = false → nothing .recoveryHomingStart))) ∧
    (s.staysOn → s.wheel.state = .homing → ∀ h, s.wheel.homing = some h → s.power.softReset = none ∨ h.use = .softReset →
      let w := s.wheel
      let goesOn := fun (i : Instr) (p : HomingPhase) (target : Nat) (timer : Timer) => ∃ t, exec i s = .next t ∧
        t.wheel.state = .homing ∧ t.wheel.homing = some { h with phase := p } ∧ t.wheel.mounted = w.mounted ∧
        t.wheel.target = target ∧ t.wheel.timer = timer ∧ Keeps mechanismParts s t
      (h.phase = .search → goesOn (.indexMark width) (.read width []) w.target w.timer) ∧
      (∀ index bits, h.phase = .read index bits →
        let code := codeRead index bits width
        (bits.length < 7 →
          goesOn (.codeMark width) (.read index (bits ++ [decide (3 * index ≤ 2 * width)])) w.target w.timer) ∧
        (bits.length = 7 → code ≠ 0 → code ≠ 255 → goesOn (.codeMark width) (.park code) 0 (some 40000))) ∧
      (∀ p ∈ [(HomingUse.startUp, HomingCause.start), (.softReset, .reset), (.change, .change), (.wake, .wake),
          (.resume, .resume), (.selfTest, .selfTest), (.recovery, .recovery), (.cover, .recovery), (.order, .recovery)],
        h.use = p.1 → s.levels.closed = true →
        (∀ i kind, h.failsAt i = some kind →
          (∀ k, s.selfTest = some k → k.step = 2 → p.1 ≠ .selfTest ∧ (k.sub = 0 ∨ s.carriage.state ≠ .idle)) →
          let testNext := p.1 ≠ .selfTest ∧ s.selfTest.map (fun k => (k.step, k.sub)) = some (3, 0)
          ∃ t, exec i s = .next t ∧ t.wheel.petal = none ∧ t.wheel.mounted = none ∧
          (¬ testNext → t.wheel.state = .unknown ∧ t.wheel.homing = none) ∧
          (testNext → t.wheel.homing = some ⟨.selfTest, s.selfTest.bind (·.wheel), .search⟩) ∧
          t.comp.wheel = s.comp.wheel ∧
          (s.link.tx ≠ none → s.link.notices = [] → t.raised (.wheel p.2 .failed none h.required) ∨ t.overflowed) ∧
          (∀ o, s.executing = some o → p.1 = .order ∨ p.1 = .change → WritesOrderFault kind o s t) ∧
          (p.1 = .resume → s.executing = none → s.selfTest = none → t.seq.recovery.wheel = false ∧
            (s.seq.queue = [] → WritesFault kind none s t) ∧
            ∀ o rest, s.seq.queue = o :: rest → o.state = .queued → o.held = none → s.seq.recovery.wheel = true →
              WritesOrderFault kind o s t) ∧
          (p.1 = .selfTest → (s.selfTest.map (·.step)) = some 3 → t.faults.x = s.faults.x ∧ ∃ n, t.selfTest = some n ∧ 3 ∈ n.failed) ∧
          Keeps (.vTarget :: .relocate :: mechanismParts) s t) ∧
        (∀ code, h.phase = .park code → s.faults.x = none → s.faults.p = none →
          let reads := fun (outcome : HomingOutcome) (more : State → Prop) => ∃ t, exec .wheelSettled s = .next t ∧
            t.wheel.homing = none ∧ (s.link.tx ≠ none → s.link.notices = [] →
              t.raised (.wheel p.2 outcome (some code) h.required) ∨ t.overflowed) ∧
            more t ∧ Keeps (.compWheel :: mechanismParts) s t
          let writes := fun (o : Option Order) (t : State) => ∃ f, t.faults.x = some f ∧ f.kind = .wheelMismatch ∧
            f.order = o.map (·.kind.name) ∧ f.required = h.required
          (p.1 = .order → s.selfTest = none → ∀ o, s.executing = some o → o.kind.name = .strike ∨ o.kind.name = .lift →
            let outcome := h.ends code (decide (s.seq.queue.tail = [] ∧ s.seq.stage = []))
            reads outcome fun t => t.wheel.mounted = some code ∧ (outcome = .adopted → t.comp.wheel = some code) ∧
              (outcome = .mismatch → t.comp.wheel = s.comp.wheel ∧ t.seq.queue.head? = some o ∧ writes (some o) t)) ∧
          (p.1 = .resume → s.executing = none → s.selfTest = none → s.seq.recovery.wheel = true →
            (∀ o ∈ s.seq.queue, o.state = .queued ∧ o.held = none) →
            let outcome := h.ends code (decide (s.seq.queue = [] ∧ s.seq.stage = []))
            reads outcome fun t => t.wheel.mounted = some code ∧ t.wheel.state = .settled ∧ t.wheel.petal = some 0 ∧
              t.seq.recovery.wheel = false ∧
              t.comp.wheel = (if outcome = .adopted ∨ outcome = .mounted ∧ s.comp.wheel = none then some code
                else s.comp.wheel) ∧
              (outcome = .mismatch → writes s.seq.queue.head? t)) ∧
          (p.1 = .selfTest → (s.selfTest.map (·.step)) = some 3 →
            let outcome := h.ends code (decide (s.seq.queue = [] ∧ s.seq.stage = []))
            reads outcome fun t => (∃ n, t.selfTest = some n ∧
              (outcome = .mismatch → 3 ∈ n.failed ∧ t.wheel.mounted = none ∧ t.comp.wheel = s.comp.wheel) ∧
              (outcome ≠ .mismatch → t.wheel.mounted = some code ∧ (∀ m, s.selfTest = some m → 3 ∉ m.failed → 3 ∉ n.failed)))))))

/-- O52. An edge of a feed moves the platen 4 steps its way, and the last one leaves it IDLE and ends an executing
FEED, which advances the line generation from +8 steps on (R75, R110); an edge outside a feed is the knob's: the
platen, the vertical target and the relocate point move 4 steps and the correction memory empties; with the channels
off it is counted. The platen timer stops a feed with PLATEN_STALL, of the executing order if there is one. When a
feed's last edge frees it, a lift move to VIEW that waits begins. The lift switches that read the target end its move,
the target and VIEW on the way from UNKNOWN, and the executing STRIKE or LIFT then sends it on from VIEW; outside a
move the lift is as they read. The lift timer leaves it UNKNOWN with LIFT_STALL in the same way. ON_TIME_END starts
the 3000 µs rest; at its end the driver is READY with hammer-home seen, or else STUCK with HAMMER_STUCK of the
executing order; HAMMER_HOME makes a STUCK driver READY; the wait of a fire in STUCK ends in HAMMER_STUCK. A feed's
stall with no order executing is written with order kind none (log 98), and the waiting lift move begins at the feed's
end (log 43). Where the rules leave it open the model's choices are logs 11, 35, 43, 46, 47, 95, 98. (R71, R75, R76,
R77, R94, R95, R96, R97, R101, R102, R110, R112) -/
def Obligations.PlatenLiftHammer : Prop :=
  ∀ s : State, OrdersOk s.seq →
    let p := s.platen
    let four : Bool → VPos := fun b => if b then 4 else -4
    (s.staysOn → p.state = .feeding → 4 < p.remaining → ∀ forward, ∃ t, exec (.platenEncoderEdge forward) s = .next t ∧
      t.platen = { p with position := p.position + four p.forward, remaining := p.remaining - 4, timer := some 20000 } ∧
      Keeps mechanismParts s t) ∧
    (s.aside → (∀ o, s.executing = some o → p.state = .feeding → 4 < p.remaining → o.phase = .feeding →
        (∃ n, o.kind = .ret n) ∨ (∃ n, o.kind = .feed n) ∨ o.kind = .paperLoad ∨ o.kind = .paperEject →
        s.seq.liftToView = false → ∀ forward, ∃ t, exec (.platenEncoderEdge forward) s = .next t ∧
        t.platen = { p with position := p.position + four p.forward, remaining := p.remaining - 4, timer := some 20000 } ∧
        t.seq.queue.head? = some o ∧ Keeps (.platen :: settleParts) s t) ∧
      (s.executing = none → s.seq.liftToView = true → p.state = .feeding → p.remaining ≤ 4 → s.hammer.state ≠ .on →
        s.hammer.state ≠ .rest → s.lift.state = .held .print ∨ s.lift.state = .held .correct ∨
          (s.lift.state = .unknown ∧ ¬ s.readsView) → ∀ forward, ∃ t, exec (.platenEncoderEdge forward) s = .next t ∧
        t.lift = { s.lift with state := .moving, target := .view, viaView := false, use := .fault, timer := some 30000 } ∧
        Keeps (.platen :: settleParts) s t) ∧
    (∀ forward ∈ [true, false],
      (p.state = .feeding → 4 < p.remaining → s.executing = none → ∃ t, exec (.platenEncoderEdge forward) s = .next t ∧
        t.platen = { p with position := p.position + four p.forward, remaining := p.remaining - 4,
                            timer := some 20000 } ∧ Keeps (.platen :: settleParts) s t) ∧
      (p.state = .feeding → p.remaining ≤ 4 →
        (s.executing = none → ∃ t, exec (.platenEncoderEdge forward) s = .next t ∧
          t.platen = { p with position := p.position + four p.forward, state := .idle, remaining := 0,
                              timer := none } ∧ Keeps (.platen :: settleParts) s t) ∧
        (∀ o, s.executing = some o → (∀ n, o.kind = .feed n → o.phase = .feeding → s.faults.x = none →
          s.faults.p = none → ∃ t, exec (.platenEncoderEdge forward) s = .next t ∧
          t.platen.state = .idle ∧ t.platen.position = p.position + four p.forward ∧
          (∀ q ∈ t.seq.queue, q.number ≠ o.number) ∧ t.seq.printPoint = min 1599 o.horizontal ∧
          t.memory = (if 8 ≤ n then s.memory.nextLine else s.memory) ∧
          Keeps (.platen :: .ink :: .line :: .memory :: settleParts) s t))) ∧
      (p.state = .idle → s.executing = none → ∃ t, exec (.platenEncoderEdge forward) s = .next t ∧
        t.platen = { p with position := p.position + four forward } ∧
        t.comp.vTarget = s.comp.vTarget + four forward ∧ t.comp.relocateV = s.comp.relocateV + four forward ∧
        t.comp.relocateH = s.comp.relocateH ∧ t.memory = { s.memory with records := [] } ∧
        Keeps (.platen :: .vTarget :: .relocate :: .line :: .memory :: settleParts) s t) ∧
      (p.state = .off → s.executing = none → ∃ t, exec (.platenEncoderEdge forward) s = .next t ∧
        t.platen = { p with knobCount := p.knobCount + (if forward then 1 else -1), knobSeen := true } ∧
        Keeps (.platen :: settleParts) s t)) ∧
    (p.state = .feeding → s.executing = none → ∃ t, exec .platenMotionTimerExpiry s = .next t ∧
      t.platen = { p with state := .idle, remaining := 0, timer := none } ∧ WritesFault .platenStall none s t ∧
      Keeps (.platen :: settleParts) s t) ∧
    (∀ q ∈ [(false, true, LiftTarget.view), (true, false, .print), (true, true, .correct)], s.executing = none →
      s.seq.liftToView = false → ∃ t, exec (.liftSwitchChange q.1 q.2.1) s = .next t ∧
      (t.pins.lsw1Closed, t.pins.lsw0Closed) = (q.1, q.2.1) ∧
      (s.lift.state ≠ .moving → t.faults.x = none → t.faults.p = none → t.lift.state = .held q.2.2) ∧
      (s.lift.state = .moving → s.lift.viaView = false → s.lift.target = q.2.2 → t.faults.x = none →
        t.faults.p = none → t.lift = { s.lift with state := .held q.2.2, timer := none }) ∧
      (s.lift.state = .moving → s.lift.viaView = true → q.2.2 = .view →
        t.lift = { s.lift with viaView := false, timer := some 30000 }) ∧
      (s.lift.state = .moving → s.lift.viaView = false → s.lift.target ≠ q.2.2 → t.lift = s.lift) ∧
      Keeps (.pins :: settleParts) s t) ∧
    (∀ q ∈ [(false, true, LiftTarget.view), (true, false, .print), (true, true, .correct)], ∀ o, s.executing = some o →
      s.seq.liftToView = false → s.lift.state = .moving → s.lift.viaView = false → s.lift.target = q.2.2 →
      let place : Option LiftTarget := match o.kind.name with
        | .strike => some .print
        | .lift => some .correct
        | .wheelChange => some .view
        | .paperLoad => some .view
        | .paperEject => some .view
        | _ => none
      (place = none ∨ place = some q.2.2 → ∃ t, exec (.liftSwitchChange q.1 q.2.1) s = .next t ∧
        (t.faults.x = none → t.faults.p = none → t.lift = { s.lift with state := .held q.2.2, timer := none }) ∧
        Keeps mechanismParts s t) ∧
      (o.kind.name = .strike ∨ o.kind.name = .lift → q.2.2 = .view → s.faults.x = none → s.faults.p = none → s.quiet →
        o.nextFire ≠ none → s.wheel.state ≠ .unknown → ∃ t, exec (.liftSwitchChange q.1 q.2.1) s = .next t ∧
        (∀ r, place = some r → t.lift = { s.lift with state := .moving, target := r, viaView := false, use := .order
                                                      timer := some 30000 }) ∧
        t.seq.queue.head? = some o ∧ Keeps (.pins :: .carriage :: .wheel :: settleParts) s t)) ∧
    (s.lift.state = .moving → s.lift.use = .viewTimer → s.executing = none → ∃ t, exec .liftTimerExpiry s = .next t ∧
      (s.seq.state ≠ .stopped → t.lift = { s.lift with state := .unknown, viaView := false, timer := none }) ∧
      WritesFault .liftStall none s t ∧ Keeps settleParts s t) ∧
    (s.executing = none →
      (∃ t, exec .onTimeEnd s = .next t ∧
        t.hammer = (if s.hammer.state = .on then { s.hammer with state := .rest, pulse := some 3000 } else s.hammer) ∧
        Keeps (.hammer :: settleParts) s t) ∧
      (s.hammer.state = .rest → ∃ t, exec .restEnd s = .next t ∧
        t.hammer = { state := if s.pins.hammerHome then .ready else .stuck } ∧ Keeps (.hammer :: settleParts) s t) ∧
      (∃ t, exec .hammerHome s = .next t ∧ t.pins = { s.pins with hammerHome := true } ∧
        t.hammer = (if s.hammer.state = .stuck then { state := .ready } else s.hammer) ∧
        Keeps (.hammer :: .pins :: settleParts) s t)) ∧
    (∀ o, s.executing = some o → s.faults.x = none → s.faults.p = none →
      (s.hammer.state = .rest → s.pins.hammerHome = false → ∃ t, exec .restEnd s = .next t ∧
        t.hammer = { state := .stuck } ∧ WritesOrderFault .hammerStuck o s t ∧ Keeps (.hammer :: settleParts) s t) ∧
      (s.hammer.state = .stuck → s.hammer.waitTimer.isSome = true → ∃ t, exec .stuckTimerExpiry s = .next t ∧
        t.hammer = { s.hammer with waitTimer := none } ∧ WritesOrderFault .hammerStuck o s t ∧
        Keeps (.hammer :: settleParts) s t) ∧
      (p.state = .feeding → ∃ t, exec .platenMotionTimerExpiry s = .next t ∧
        t.platen = { p with state := .idle, remaining := 0, timer := none } ∧ WritesOrderFault .platenStall o s t ∧
        t.seq.queue.head? = some o ∧ Keeps (.platen :: settleParts) s t) ∧
      (s.lift.state = .moving → s.lift.use = .order → ∃ t, exec .liftTimerExpiry s = .next t ∧
        (s.seq.state ≠ .stopped → t.lift = { s.lift with state := .unknown, viaView := false, timer := none }) ∧
        WritesOrderFault .liftStall o s t ∧ t.seq.queue.head? = some o ∧ Keeps settleParts s t)))

/-- O53. Every sensor event changes its pin; in DEEP_OFF it changes nothing else, and a level already held is no
change. Elsewhere paper, ribbon and tape take their new level with one SENSOR notice that names them, raised alone
when nothing waits, and otherwise in the queue, at a place that is open (log 17), or lost to an OVERFLOW. The order
that the P slot names is prepared again: it is PREPARED and the slot keeps its fault, or it fails as before, or a
further kind is written to the slot, with a FAULT notice if the slot does not hold it. The release lever does so and
empties the correction memory, with every cell on paper losing its record. When the cover opens in RUN the carriage
under way is LOST, a feed stops, the wheel is OFF with no mounted wheel, the executing order gives COVER_OPEN, and a
WHEEL_CHANGE that awaits it goes on. When it closes, the wheel homes: for the WHEEL_CHANGE that awaits it, or else to
the wheel mounted before. Where the rules leave it open the model's choices are logs 11, 16, 17, 84. (R59, R69, R76,
R93, R99, R100, R101, R111, R112, R166, R191) -/
def Obligations.SensorEvents : Prop :=
  ∀ (s : State) (level : Bool), OrdersOk s.seq →
    let l := s.levels
    let q := s.pins.sensors
    let pin := fun (t : State) (x : Levels) => t.pins = { s.pins with sensors := x }
    let said := fun (n : Sensor) (t : State) =>
      (s.link.tx ≠ none → s.link.notices = [] →
        t.raised (.sensor (some n) t.levels) ∨ t.overflowed) ∧
      (s.resting → n ≠ .cover →
        t.link = s.link.noticed (.sensor (some n) t.levels))
    (s.power.state = .deepOff → ∀ p ∈ [(Instr.sensorChange .paper level, { q with present := level }),
        (.sensorChange .ribbon level, { q with ribbonEnd := level }),
        (.sensorChange .tape level, { q with tapeEnd := level }),
        (.releaseLeverChange level, { q with engaged := level }), (.coverOpenEvent, { q with closed := false }),
        (.coverClosedEvent, { q with closed := true })], ∃ t, exec p.1 s = .next t ∧ pin t p.2 ∧ Keeps [.pins] s t) ∧
    (s.aside → s.executing = none → ∀ p ∈ [(PlainSensor.paper, Sensor.paper, l.present, { l with present := level },
          { q with present := level }),
        (.ribbon, .ribbon, l.ribbonEnd, { l with ribbonEnd := level }, { q with ribbonEnd := level }),
        (.tape, .tape, l.tapeEnd, { l with tapeEnd := level }, { q with tapeEnd := level })],
      ∃ t, exec (.sensorChange p.1 level) s = .next t ∧ t.levels = p.2.2.2.1 ∧ pin t p.2.2.2.2 ∧
      (p.2.2.1 ≠ level → said p.2.1 t ∧
        (s.faults.x = none → s.seq.state = .faulted → ∀ f, s.faults.p = some f → ∀ o rest, s.seq.queue = o :: rest →
          s.lasts o → o.copy = none → ∀ k, o.held = some k → o.heldWritten = true →
          let again := Engine.failure o { s with levels := p.2.2.2.1 }
          (again = none → t.faults = s.faults ∧
            t.seq.queue.head? = some { o with state := .prepared, held := none, heldWritten := false }) ∧
          ∀ k', again = some k' → t.faults.x = none ∧ (k' = k → t.faults.p = some f ∧ t.seq.queue.head? = some o) ∧
            (k' ≠ k → t.seq.queue.head? = some { o with state := .queued, held := some k', heldWritten := true } ∧
              t.faults.p = some { f with count := min 255 (f.count + 1)
                                         kinds := if k' ∈ f.kinds then f.kinds else f.kinds ++ [k'] } ∧
              (s.link.tx ≠ none → s.link.notices = [] →
                (t.raised (.fault .p k' f.order f.afterHammer f.group f.glyph f.target f.required) ↔
                  f.kind ≠ k' ∧ k' ∉ f.kinds))))) ∧
      Keeps (.levels :: .pins :: .openValues :: settleParts) s t) ∧
    (s.aside → s.executing = none →
      (l.engaged = level → ∃ t, exec (.releaseLeverChange level) s = .next t ∧ pin t { q with engaged := level } ∧
        Keeps (.pins :: settleParts) s t) ∧
      (l.engaged ≠ level → ∃ t, exec (.releaseLeverChange level) s = .next t ∧ t.levels = { l with engaged := level } ∧
        pin t { q with engaged := level } ∧
        said .lever t ∧ t.memory = { s.memory with records := [] } ∧ t.comp.line.length = s.comp.line.length ∧
        (MemoryOk s.memory → (∀ c ∈ s.comp.line, ∀ k, c.origin = .onPaper (some k) → ∃ r ∈ s.memory.records, r.slot = k) →
          ∀ c ∈ t.comp.line, c.origin = .onPaper none ∨ c ∈ s.comp.line ∧ ∀ r ∈ s.memory.records,
            c.origin ≠ .onPaper (some r.slot)) ∧
        Keeps (.levels :: .pins :: .memory :: .line :: .openValues :: settleParts) s t)) ∧
    (s.aside → s.power.state = .run → l.closed = true → ∃ t, exec .coverOpenEvent s = .next t ∧
      t.levels = { l with closed := false } ∧ pin t { q with closed := false } ∧ said .cover t ∧
      t.wheel.state = .off ∧ t.wheel.petal = none ∧ t.wheel.mounted = none ∧ t.wheel.before = s.wheel.mounted ∧
      (s.carriage.state = .moving ∨ s.carriage.state = .homing → t.carriage.state = .lost) ∧
      (s.carriage.state ≠ .moving → s.carriage.state ≠ .homing → s.executing = none → t.carriage = s.carriage) ∧
      (s.platen.state ≠ .feeding → s.executing = none → t.platen = s.platen) ∧
      (s.platen.state = .feeding → t.platen.state = .idle ∧ t.platen.position = s.platen.position) ∧
      (∀ o, s.executing = some o →
        (∀ x, o.kind = .wheelChange x → o.phase = .awaitOpen →
          t.seq.queue.head? = some { o with phase := .awaitClose } ∧ t.faults.x = s.faults.x) ∧
        (o.phase ≠ .awaitOpen → WritesOrderFault .coverOpen o s t)) ∧
      (s.executing = none → s.faults.x = none → s.faults.p = none → t.faults.x = none) ∧
      Keeps (.levels :: .pins :: .carriage :: .wheel :: .platen :: .openValues :: settleParts) s t) ∧
    (s.aside → s.power.state = .run → l.closed = false → s.faults.x = none → s.faults.p = none →
      s.wheel.homing = none → s.comp.wheel ≠ none → s.wheel.lostByTest = false →
      (s.executing = none → ∃ t, exec .coverClosedEvent s = .next t ∧ t.levels = { l with closed := true } ∧
        pin t { q with closed := true } ∧ said .cover t ∧ t.wheel.state = .homing ∧ t.wheel.homing = some ⟨.cover, s.wheel.before, .search⟩ ∧
        Keeps (.levels :: .pins :: .wheel :: .openValues :: settleParts) s t) ∧
      (∀ o, s.executing = some o → ∀ x, o.kind = .wheelChange x → o.phase = .awaitClose →
        ∃ t, exec .coverClosedEvent s = .next t ∧
        t.levels = { l with closed := true } ∧ pin t { q with closed := true } ∧ said .cover t ∧
        t.wheel.state = .homing ∧
        t.wheel.homing = some ⟨.change, if x = 0 then none else some x, .search⟩ ∧
        t.seq.queue.head? = some { o with phase := .home } ∧ Keeps (.levels :: .pins :: .wheel :: .openValues :: settleParts) s t))

/-- O54. With no read in progress, or with another number of bytes than the read asked for, a read's end changes
nothing. The next waiting read starts. The start-up header gives the dictionary's state and the first wheel table's
read; the size code that came with it is the identity record's, and the device's at the next start; a table fills
its slot and starts the next table's read, or the carriage homing; a DICTIONARY header gives READY with its counts
or ABSENT. For the lookup in service an index entry asks for its bucket, or gives the verdict of a missing word when
the bucket is empty; a bucket gives the verdict. A timed-out header is FAILED, a timed-out table leaves its slot
EMPTY; a timed-out index or bucket, and a bucket whose scan is malformed, fail the dictionary and leave PENDING
words UNCHECKED. The header read of a self-test ends the test with one DONE(SELF_TEST, COMPLETE), which lists the
codes of the failed steps in step order, each once, 05 last for a read that timed out or an invalid header, or 01
with none. SPELL(DICT, FAILED) carries counts of 0 (log 57). Where the rules leave it open the model's choices are
logs 7, 39, 45, 57, 67. (R48, R139, R140, R141, R143, R144, R145, R146, R176, R185, R195) -/
def Obligations.FlashReads : Prop :=
  ∀ (s : State) (bytes : List Byte) (size : Half),
    let at' := fun (i : Nat) => (bytes.getD i 0).toNat
    let valid := at' 0 = 0x4A ∧ at' 1 = 0x57 ∧ at' 2 = 1 ∧ at' 4 * 256 + at' 5 ∈ [256, 512, 1024, 2048, 4096, 8192]
    let buckets := at' 4 * 256 + at' 5
    let words := at' 6 * 65536 + at' 7 * 256 + at' 8
    let index := at' 9 * 65536 + at' 10 * 256 + at' 11
    let next := fun (t : State) => ∀ r rest, s.port.waiting = r :: rest →
      t.port.current = some r ∧ t.port.timer = some 5000
    (s.port.current = none → (∃ t, exec (.flashReadEnd bytes size) s = .next t ∧ Keeps [] s t) ∧
      ∃ t, exec .flashReadTimeout s = .next t ∧ Keeps [] s t) ∧
    (∀ r, s.port.current = some r →
      (bytes.length ≠ r.length → ∃ t, exec (.flashReadEnd bytes size) s = .next t ∧ Keeps [] s t) ∧
      (s.power.state = .starting → s.power.startUp = some .header → s.executing = none → s.selfTest = none →
        s.seq.recovery = {} → s.power.softReset = none → s.power.entering = none → s.power.deepOff = none →
        r.asker = .startHeader → r.length = 15 → s.port.waiting = [] → s.slots.length = 4 →
        (bytes.length = 15 → valid → 0 < at' 3 → ∃ t, exec (.flashReadEnd bytes size) s = .next t ∧
          t.spell.dict = .ready ∧ t.spell.bucketCount = buckets ∧ t.spell.wordCount = words ∧
          t.spell.indexOffset = index ∧ t.port.flashSize = size ∧ t.pins = { s.pins with flashSize := size } ∧
          t.port.current = some ⟨at' 12 * 65536 + at' 13 * 256 + at' 14, 292, .table 0⟩ ∧
          t.slots = s.slots.set 0 { state := .loading 0 } ∧ t.display.lit = true ∧ t.power.startUp = some .tables ∧
          Keeps (.port :: .dictionary :: .light :: .slots :: .pins :: settleParts) s t) ∧
        (∀ i ∈ [Instr.flashReadTimeout, .flashReadEnd bytes size], (i = .flashReadTimeout ∨ bytes.length = 15 ∧ ¬ valid) →
          s.levels.closed = true → ∃ t, exec i s = .next t ∧
          t.spell.dict = (if i = .flashReadTimeout then .failed else .absent) ∧ t.port.current = none ∧
          t.carriage.state = .homing ∧ t.carriage.after = .leftMargin ∧ t.power.startUp = some .carriage ∧
          (i = .flashReadTimeout → t.port.flashSize = 0 ∧ t.pins = s.pins) ∧
          Keeps (.port :: .dictionary :: .light :: .carriage :: .pins :: settleParts) s t)) ∧
      (∀ k, r.asker = .table k → r.length = 292 → s.power.state = .starting → s.power.startUp = some .tables →
        s.executing = none → s.selfTest = none → s.seq.recovery = {} → s.power.softReset = none →
        s.power.entering = none → s.power.deepOff = none → s.port.waiting = [] →
        ∀ p ∈ [(Instr.flashReadEnd bytes size, slotOfTable bytes), (.flashReadTimeout, ({} : WheelSlot))],
        (p.1 = .flashReadTimeout ∨ bytes.length = 292) →
        (k + 1 < s.spell.tableCount → ∃ t, exec p.1 s = .next t ∧
          t.slots = (s.slots.set k p.2).set (k + 1) { state := .loading 0 } ∧
          t.port.current = some ⟨s.spell.tableOffset + 292 * (k + 1), 292, .table (k + 1)⟩ ∧
          Keeps (.port :: .slots :: settleParts) s t) ∧
        (s.spell.tableCount ≤ k + 1 → ∃ t, exec p.1 s = .next t ∧
          t.slots = s.slots.set k p.2 ∧ t.port.current = none ∧ t.carriage.state = .homing ∧
          t.carriage.after = .leftMargin ∧ t.power.startUp = some .carriage ∧
          Keeps (.port :: .slots :: .carriage :: settleParts) s t)) ∧
      (s.aside → s.executing = none → r.asker = .dictHeader → s.spell.lookups = [] →
        (bytes.length = 15 → r.length = 15 → ∃ t, exec (.flashReadEnd bytes size) s = .next t ∧ next t ∧
          (valid → t.spell.dict = .ready ∧ t.spell.bucketCount = buckets ∧ t.spell.wordCount = words ∧
            t.spell.indexOffset = index) ∧
          (¬ valid → t.spell.dict = .absent) ∧ Keeps (.port :: .dictionary :: settleParts) s t) ∧
        (∃ t, exec .flashReadTimeout s = .next t ∧ next t ∧ t.spell.dict = .failed ∧
          (s.link.tx ≠ none → s.link.notices = [] → t.raised (.spellDict .failed 0 0)) ∧
          Keeps (.port :: .dictionary :: settleParts) s t)) ∧
      (r.asker = .testHeader → s.power.state = .run → s.power.wake = none → s.executing = none → s.seq.recovery = {} →
        s.power.softReset = none → s.power.entering = none → s.power.startUp = none → s.power.deepOff = none →
        ∀ k, s.selfTest = some k → k.step = 6 → k.sub = 1 → 6 ∉ k.failed →
        let code := fun (step n : Nat) => if step ∈ k.failed then [n] else []
        let codes := code 1 6 ++ code 2 2 ++ code 3 3 ++ code 4 4 ++ if 1 ∈ k.failed then [] else code 5 6
        let ends := fun (i : Instr) (listed : List Nat) => ∃ t, exec i s = .next t ∧ t.selfTest = none ∧ next t ∧
          (s.link.tx ≠ none → s.link.notices = [] → t.raised (.done k.group .selfTest .complete 0 listed)) ∧
          Keeps (.port :: .selfTest :: settleParts) s t
        (bytes.length = 15 → r.length = 15 → valid →
          ends (.flashReadEnd bytes size) (if codes = [] then [1] else codes)) ∧
        (∀ i ∈ [Instr.flashReadTimeout, .flashReadEnd bytes size],
          (i = .flashReadTimeout ∨ bytes.length = 15 ∧ r.length = 15 ∧ ¬ valid) → ends i (codes ++ [5]))) ∧
      (s.aside → s.executing = none → SpellOk s.spell → ∀ look rest, s.spell.lookups = look :: rest → look.phase ≠ .waiting →
        ∀ id, look.word = some id → ∀ w ∈ s.spell.words, w.id = id → w.epoch = look.epoch → w.state = .pending →
        let judged := fun (found : Bool) (i : Instr) => ∃ t, exec i s = .next t ∧ next t ∧
          t.spell.lookups.length = rest.length ∧
          (∀ v ∈ t.spell.words, v.id = id → v.state = if found then .clean else .suspect) ∧
          (∀ v ∈ s.spell.words, v.id ≠ id → v ∈ t.spell.words) ∧
          (found = false → s.link.tx ≠ none → s.link.notices = [] →
            t.raised (.spellWord id w.vertical w.start w.letters)) ∧
          Keeps (.port :: .words :: settleParts) s t
        let known := decide (look.letters ∈ s.spell.user)
        (r.asker = .index → r.length = 4 → bytes.length = 4 →
          (at' 3 = 0 → judged known (.flashReadEnd bytes size)) ∧
          (at' 3 ≠ 0 → ∃ t, exec (.flashReadEnd bytes size) s = .next t ∧
            t.spell.lookups = { look with phase := .bucket } :: rest ∧
            ⟨at' 0 * 65536 + at' 1 * 256 + at' 2, at' 3, .bucket⟩ ∈ t.port.current.toList ++ t.port.waiting ∧
            Keeps (.port :: .words :: settleParts) s t)) ∧
        (r.asker = .bucket → r.length = bytes.length →
          (scanBucket look.letters bytes.length bytes = .found → judged true (.flashReadEnd bytes size)) ∧
          (scanBucket look.letters bytes.length bytes = .missing → judged known (.flashReadEnd bytes size))) ∧
        (∀ i ∈ [Instr.flashReadTimeout, .flashReadEnd bytes size],
          (i = .flashReadTimeout ∧ (r.asker = .index ∨ r.asker = .bucket) ∨ r.asker = .bucket ∧ r.length = bytes.length ∧
            scanBucket look.letters bytes.length bytes = .malformed) → ∃ t, exec i s = .next t ∧ next t ∧
          t.spell.dict = .failed ∧ t.spell.lookups = [] ∧ (∀ v ∈ t.spell.words, v.state ≠ .pending) ∧
          t.spell.words.map (·.id) = s.spell.words.map (·.id) ∧
          (s.link.tx ≠ none → s.link.notices = [] → t.raised (.spellDict .failed 0 0)) ∧
          Keeps (.port :: .words :: .dictionary :: settleParts) s t)))

/-- O55. The view timer's expiry starts the lift toward VIEW in RUN, or has the move wait for a feed, a pulse with
its rest or a lift move that runs; the timer stays stopped unless stale LIFTs empty the queue at the same event. The
standby timer's expiry, and PENDING_ENTRY_START for the entry that is pending, begin an entry while the conditions
of R180 hold: with the lift at VIEW the part is in STANDBY or SLEEP at once, the channels off, with its POWER
notice, and in SLEEP with the display dark, during a pulse or a rest too (log 105); otherwise the lift goes to VIEW
first. The end of that move brings the state in the same way; its stall gives the entry up, and LIFT_STALL is
written to the X slot with order kind none. The blink timer turns the blink phase and starts again; the hold timer
empties the message area; the override's timer ends the override. A timer that does not run expires without effect.
Where the rules leave it open the model's choices are logs 8, 43, 50, 62, 68, 105. (R71, R77, R102, R103, R154,
R158, R160, R162, R180, R181) -/
def Obligations.TimerEvents : Prop :=
  ∀ s : State, OrdersOk s.seq →
    let d := s.display
    let restful := s.power.state = .run ∧ s.comp.keys = [] ∧ s.seq.queue = [] ∧ s.seq.stageState = .empty ∧
      s.seq.state = .idle ∧ s.faults.x = none ∧ s.faults.p = none ∧ s.wheel.homing = none ∧ s.power.conditions = true
    let rests := fun (r : Rest) (l : Lift) (more : List Piece) (t : State) =>
      t.power.state = (match r with | .standby => .standby | .sleep => .sleep) ∧
      t.power.entering = none ∧ t.power.pendingEntry = none ∧ t.power.timer = none ∧
      t.carriage.state = .off ∧
      (s.carriage.state ≠ .moving → s.carriage.state ≠ .homing → t.carriage = { s.carriage with state := .off, timer := none }) ∧
      t.wheel.state = .off ∧
      t.wheel.mounted = s.wheel.mounted ∧ t.platen.state = .off ∧ t.platen.position = s.platen.position ∧
      t.hammer.state = .off ∧ t.lift = l ∧
      (s.link.tx ≠ none → s.link.notices = [] → t.raised (.power t.power.state)) ∧
      (r = .standby → t.display.lit = s.display.lit ∧ t.display.override = s.display.override) ∧
      (r = .sleep → t.display.lit = false ∧ t.display.message = .nothing ∧ t.display.override = none) ∧
      Keeps (more ++ [.carriage, .wheel, .platen, .hammer, .light, .override, .openValues] ++ settleParts) s t
    let entered := fun (i : Instr) (r : Rest) => ∃ t, exec i s = .next t ∧ rests r s.lift [] t
    let waits := fun (i : Instr) (r : Rest) => ∃ t, exec i s = .next t ∧ t.power.state = .run ∧
      t.power.entering = some r ∧ t.power.timer = none ∧ t.seq.viewTimer = none ∧ t.lift.state = .moving ∧ t.lift.target = .view ∧
      Keeps settleParts s t
    (s.aside → s.executing = none →
      (s.seq.viewTimer = none → ∃ t, exec .viewTimerExpiry s = .next t ∧ Keeps settleParts s t) ∧
      (s.seq.viewTimer.isSome = true → s.power.state = .run → s.quiet → ∃ t, exec .viewTimerExpiry s = .next t ∧
        (s.lift.state = .held .print ∨ s.lift.state = .held .correct ∨ (s.lift.state = .unknown ∧ ¬ s.readsView) →
          t.lift = { s.lift with state := .moving, target := .view, viaView := false, use := .viewTimer,
                                 timer := some 30000 }) ∧
        (s.seq.state = .paused ∨ s.seq.state = .faulted ∨ s.seq.state = .stopped ∨
          (∀ o ∈ s.seq.queue ++ s.seq.stage, o.kind.name ≠ .lift) → t.seq.viewTimer = none) ∧ Keeps settleParts s t) ∧
      (s.seq.viewTimer.isSome = true → s.power.state = .run → ¬ s.quiet ∨ s.lift.state = .moving →
        ∃ t, exec .viewTimerExpiry s = .next t ∧ t.seq.liftToView = true ∧ t.lift = s.lift ∧ Keeps settleParts s t) ∧
      (restful → s.power.timer.isSome = true → s.lift.state = .held .view → entered .standbyTimerExpiry .standby) ∧
      (restful → s.power.timer.isSome = true → s.lift.state = .held .print → s.quiet → s.seq.stage = [] →
        waits .standbyTimerExpiry .standby) ∧
      (s.power.timer = none → ∃ t, exec .standbyTimerExpiry s = .next t ∧ Keeps settleParts s t) ∧
      (∀ r, s.power.pendingEntry = some r → restful →
        (s.lift.state = .held .view → entered .pendingEntryStart r) ∧
        (s.lift.state = .held .print → s.quiet → s.seq.stage = [] → waits .pendingEntryStart r)) ∧
      (s.power.pendingEntry = none → ∃ t, exec .pendingEntryStart s = .next t ∧ Keeps settleParts s t)) ∧
    (∀ r, s.power.entering = some r → { s with power := { s.power with entering := none } }.aside → restful →
      s.power.timer = none → s.lift.state = .moving →
      (s.lift.target = .view → s.lift.viaView = false → ∃ t, exec (.liftSwitchChange false true) s = .next t ∧
        t.pins = { s.pins with lsw1Closed := false, lsw0Closed := true } ∧
        rests r { s.lift with state := .held .view, timer := none } [.pins] t) ∧
      (s.lift.use ≠ .deepOff → ∃ t, exec .liftTimerExpiry s = .next t ∧ t.power.state = .run ∧
        t.power.entering = none ∧ t.power.pendingEntry = none ∧
        t.lift = { s.lift with state := .unknown, viaView := false, timer := none } ∧
        WritesFault .liftStall none s t ∧ Keeps settleParts s t)) ∧
    (∃ t, exec .blinkTimerExpiry s = .next t ∧
      (d.blinkTimer.isSome = true → t.display.phaseOn = !d.phaseOn ∧ t.display.blinkTimer = some 500000) ∧
      (d.blinkTimer = none → t.display.phaseOn = d.phaseOn) ∧ t.display.lit = d.lit ∧ Keeps [.light] s t) ∧
    (∃ t, exec .holdTimerExpiry s = .next t ∧
      (d.holdTimer.isSome = true → t.display.message = .nothing ∧ t.display.holdTimer = none) ∧
      (d.holdTimer = none → t.display.message = d.message) ∧ Keeps [.message] s t) ∧
    (∃ t, exec .overrideTimerExpiry s = .next t ∧
      (d.overrideTimer.isSome = true → t.display.override = none ∧ t.display.overrideTimer = none) ∧
      (d.overrideTimer = none → t.display.override = d.override) ∧ Keeps [.override] s t)

/-- O56. ORDER_START of a PREPARED STRIKE with a fire to make: out of place and with nothing that R71 holds against
it, the wheel rotates to the fire's petal by the shorter way, forward at 48 (R90), the carriage moves to its
position and the lift to PRINT, each that is not there. In place with the cover closed and the hammer READY the
hammer is ON for the order's on-time, hammer-home is no longer seen, the order has its after-hammer mark, and a
record joins the correction memory as the newest in a free slot, with the order's glyph, position and width, the
platen's vertical position, the mounted wheel, and the fire in its fired set. With all 512 records held the oldest
leaves first, the new record takes its slot, and no LIFT and no cell that referred to the old one has a record any
more. With the driver STUCK the fire waits 3000 µs instead. Where the rules leave it open the model's choices are
logs 47, 68. (R71, R72, R73, R77, R87, R90, R96, R97, R106, R107, R108, R111) -/
def Obligations.HammerFires : Prop :=
  ∀ s : State, s.aside → s.sequences → ∀ o rest, s.seq.queue = o :: rest → o.state = .prepared →
    o.fired = [] → ∀ f, o.kind = .strike f → ∀ x more, f.fires = x :: more → x.position ≤ 1599 →
    s.carriage.state = .idle → s.wheel.state = .settled →
    let there := s.carriage.position = x.position ∧ s.wheel.petal = x.petal ∧ s.lift.state = .held .print
    (¬ there → s.quiet → x.petal.isSome = true → s.lift.state ≠ .moving → s.seq.liftToView = false → ∃ t, exec .orderStart s = .next t ∧
      s.wheel.sent x.petal t.wheel ∧ t.carriage = s.carriage.sent x.position ∧ t.lift = s.liftSent .print ∧
      t.hammer = s.hammer ∧ t.seq.viewTimer = none ∧ Keeps (.wheel :: .carriage :: settleParts) s t) ∧
    (there → s.platen.state ≠ .feeding → s.levels.closed = true →
      let fires := fun (kept : List Record) (touched : List Piece) (more : Record → State → Prop) =>
        ∃ t, exec .orderStart s = .next t ∧
        t.hammer = { state := .on, pulse := some f.onTime } ∧ t.pins = { s.pins with hammerHome := false } ∧
        (∃ r, t.memory.records.getLast? = some r ∧ t.memory.records.dropLast = kept ∧ more r t ∧
          t.memory.generation = s.memory.generation ∧ r.slot < 512 ∧ (∀ q ∈ kept, q.slot ≠ r.slot) ∧
          r.generation = s.memory.generation ∧ r.vertical = s.platen.position ∧ r.horizontal = o.horizontal ∧
          r.glyph = f.glyph ∧ r.petal = f.petal ∧ r.underlinePetal = f.underlinePetal ∧
          r.wheel = s.wheel.mounted.getD 0 ∧ r.width = f.width ∧ r.onTime = f.onTime ∧ r.fires = f.fires ∧
          r.fired = [x.name] ∧ r.lifted = [] ∧ r.word = f.word ∧
          ∃ p, t.seq.queue.head? = some p ∧ p.number = o.number ∧ p.state = .executing ∧ p.fired = [x.name] ∧
            p.afterHammer = true ∧ p.record = some r.slot) ∧
        Keeps (.hammer :: .pins :: .memory :: touched ++ settleParts) s t
      (s.hammer.state = .ready → MemoryOk s.memory →
        (s.memory.records.length < 512 → fires s.memory.records [] fun _ _ => True) ∧
        (∀ q older, s.memory.records = q :: older → older.length = 511 → fires older [.line] fun r t =>
          r.slot = q.slot ∧ t.comp.index = s.comp.index ∧
          (t.comp.line = s.comp.line.map fun c =>
            if c.origin = .onPaper (some q.slot) then { c with origin := .onPaper none } else c) ∧
          ∀ p ∈ s.seq.queue ++ s.seq.stage, p.kind = .lift (.record q.slot) →
            ∀ p' ∈ t.seq.queue ++ t.seq.stage, p'.number = p.number → p'.kind ≠ .lift (.record q.slot))) ∧
      (s.hammer.state = .stuck → s.hammer.waitTimer = none → ∃ t, exec .orderStart s = .next t ∧
        t.hammer = { s.hammer with waitTimer := some 3000 } ∧ Keeps (.hammer :: settleParts) s t))

/-- O57. The PREPARED head of a RUNNING sequencer becomes EXECUTING and the view timer stops. A RETURN sends the
carriage to its target, or at it starts its feed; a FEED starts its signed feed; the PAPER orders and WHEEL_CHANGE
send the carriage to their target and the lift to VIEW, and there PAPER empties the correction memory and starts 72 or
528 steps forward, and WHEEL_CHANGE awaits the cover's opening, or its closing when it is open. A LIFT takes up the
fires of its record still unlifted with the lift on-time, and sends the wheel, the carriage and the lift to its first
fire at CORRECT. Where the rules leave it open the model's choices are logs 68, 95. (R54, R59, R70, R71, R72, R74,
R77, R87, R90, R94, R96, R101) -/
def Obligations.OrderStarts : Prop :=
  ∀ s : State, s.aside → s.sequences → s.quiet → s.carriage.state = .idle → s.lift.state ≠ .moving →
    s.seq.liftToView = false → ∀ o rest, s.seq.queue = o :: rest → o.state = .prepared →
    let x := min 1599 o.horizontal
    let runs := fun (phase : Phase) (copy : Option LiftCopy) (touched : List Piece) (more : State → Prop) =>
      ∃ t, exec .orderStart s = .next t ∧ t.seq.viewTimer = none ∧ more t ∧ Keeps (touched ++ settleParts) s t ∧
      t.seq.queue.head? = some { o with state := .executing, phase := phase, copy := copy }
    let there := s.carriage.position = x
    let parked := there ∧ s.lift.state = .held .view
    let feeds := fun (n : Nat) (forward : Bool) (t : State) => t.platen =
      { s.platen with state := .feeding, remaining := n, forward := forward, timer := some 20000 }
    let parks := ¬ parked → ¬ (there ∧ s.lift.state = .unknown ∧ s.readsView) → runs .start none [.carriage] fun t =>
      t.carriage = s.carriage.sent x ∧ t.lift = s.liftSent .view
    (∀ n, o.kind = .ret n →
      (¬ there → runs .start none [.carriage] fun t => t.carriage = s.carriage.sent x) ∧
      (there → 0 < n → runs .feeding none [.platen] (feeds n true))) ∧
    (∀ n, o.kind = .feed n → n ≠ 0 → runs .feeding none [.platen] (feeds n.natAbs (decide (0 < n)))) ∧
    (∀ p ∈ [(OrderKind.paperLoad, 72), (.paperEject, 528)], o.kind = p.1 → parks ∧
      (parked → o.record = none → runs .feeding none [.platen, .memory, .line] fun t =>
        feeds p.2 true t ∧ t.memory = { s.memory with records := [] })) ∧
    (∀ x, o.kind = .wheelChange x → parks ∧
      (parked → runs (if s.levels.closed then .awaitOpen else .awaitClose) none [] fun t =>
        t.carriage = s.carriage ∧ t.lift = s.lift)) ∧
    (∀ k, o.kind = .lift (.record k) → MemoryOk s.memory → o.fired = [] → ∀ r ∈ s.memory.records, r.slot = k →
      ∀ x more, (r.fires.filter fun f => f.name ∈ r.fired ∧ f.name ∉ r.lifted) = x :: more → x.position ≤ 1599 →
      s.wheel.state = .settled → x.petal.isSome = true →
      ¬ (s.carriage.position = x.position ∧ s.wheel.petal = x.petal ∧ s.lift.state = .held .correct) →
      runs .start (some { fires := x :: more, onTime := min 2000 (r.onTime + 200), glyph := r.glyph }) [.carriage, .wheel]
        fun t => s.wheel.sent x.petal t.wheel ∧ t.carriage = s.carriage.sent x.position ∧ t.lift = s.liftSent .correct)

/-- O58. When the carriage reaches the place of the next fire with everything else in place and the hammer READY, it
fires: a later fire of a STRIKE joins the fired set of its record and makes no new one, and a fire of a LIFT moves
into the lifted set of its record, which leaves the memory when that is complete. When a rest ends with hammer-home
seen and a fire is still to make, the wheel and the carriage go to it; when none is, the order completes: the print
point is x + w for a STRIKE and the record's position for a LIFT, the ribbon advances by w or the tape by one unit,
and the cells of the order are ON_PAPER with its record. Where the rules leave it open the model's choices are logs
11, 47. (R54, R71, R72, R73, R74, R75, R83, R90, R97, R109) -/
def Obligations.StrikesAndLifts : Prop :=
  ∀ s : State, s.aside → s.power.state = .run → s.faults.x = none → s.faults.p = none → s.seq.state = .running →
    OrdersOk s.seq → GroupsOk s.seq → s.seq.liftToView = false → ∀ o, s.executing = some o →
    let fires : List Fire := match o.kind with
      | .strike f => f.fires
      | _ => (o.copy.map (·.fires)).getD []
    let onTime := match o.kind with
      | .strike f => f.onTime
      | _ => (o.copy.map (·.onTime)).getD 0
    let place : LiftTarget := if o.kind.name = .lift then .correct else .print
    let left := fires.filter fun x => x.name ∉ o.fired
    let fired := fun (x : Fire) (records : List Record → List Record) (touched : List Piece) =>
      ∃ t, exec .carriageMoveEnd s = .next t ∧ t.hammer = { state := .on, pulse := some onTime } ∧
      t.pins = { s.pins with hammerHome := false } ∧
      (∃ p, t.seq.queue.head? = some p ∧ p.number = o.number ∧ p.state = .executing ∧ p.fired = o.fired ++ [x.name] ∧
        p.afterHammer = true) ∧
      t.memory = { s.memory with records := records s.memory.records } ∧
      Keeps (touched ++ .carriage :: .hammer :: .pins :: .memory :: settleParts) s t
    let ends := fun (point ribbon tape : Nat) => ∃ t, exec .restEnd s = .next t ∧ t.hammer = { state := .ready } ∧
      Completes o point s t ∧ t.seq.ribbonSteps = s.seq.ribbonSteps + ribbon ∧ t.seq.tapeUnits = s.seq.tapeUnits + tape ∧
      t.comp.line = settledCells o s.comp.line ∧ Keeps (.hammer :: .ink :: .line :: settleParts) s t
    (∀ x more, left = x :: more →
      (s.carriage.state = .moving → s.carriage.use = .order → s.carriage.target = x.position →
        s.wheel.state = .settled → s.wheel.petal = x.petal → s.lift.state = .held place → s.platen.state ≠ .feeding →
        s.levels.closed = true → s.hammer.state = .ready →
        (∀ f, o.kind = .strike f → o.fired ≠ [] → ∀ k, o.record = some k → fired x
          (fun l => l.map fun r => if r.slot = k then { r with fired := r.fired ++ [x.name] } else r) []) ∧
        (∀ k, o.kind = .lift (.record k) → o.copy.isSome = true → fired x
          (fun l => (l.map fun r => if r.slot = k then { r with lifted := r.lifted ++ [x.name] } else r).filter
            fun r => ¬ (r.slot = k ∧ ∀ n ∈ r.fired, n ∈ r.lifted)) [.line])) ∧
      (o.kind.name = .strike ∨ o.kind.name = .lift → s.hammer.state = .rest → s.pins.hammerHome = true →
        s.carriage.state = .idle → s.carriage.position ≠ x.position → x.position ≤ 1599 → s.wheel.state = .settled →
        x.petal.isSome = true → s.platen.state ≠ .feeding → s.lift.state = .held place →
        ∃ t, exec .restEnd s = .next t ∧ t.hammer = { state := .ready } ∧ t.carriage = s.carriage.sent x.position ∧
        s.wheel.sent x.petal t.wheel ∧ t.lift = s.lift ∧ t.seq.queue.head? = some o ∧
        Keeps (.hammer :: .carriage :: .wheel :: settleParts) s t)) ∧
    (left = [] → s.hammer.state = .rest → s.pins.hammerHome = true →
      (∀ f, o.kind = .strike f → ends (o.horizontal + f.width) f.width 0) ∧
      (o.kind.name = .lift → ends o.horizontal 0 1))

/-- O59. A RETURN's carriage that arrives starts its feed. The last edge of its feed completes a RETURN, a FEED, a
PAPER_LOAD, which sets the vertical position to 0, and a PAPER_EJECT: the print point is the order's target, 1599 at
most; RETURN and a FEED of +8 steps or more advance the line generation. A WHEEL_CHANGE whose homing reads the
required code, or any with none required, completes with the wheel SETTLED on petal 0 and that code mounted, which
with none required is the composition wheel too. With another code it stays EXECUTING with WHEEL_MISMATCH, and with
none, or a rotation timed out, with WHEEL_HOME_FAIL or WHEEL_STALL and no mounted wheel. Where the rules leave it open
the model's choices are logs 11, 41, 95. (R55, R56, R58, R59, R71, R75, R76, R83, R91, R94, R110) -/
def Obligations.OrderEnds : Prop :=
  ∀ s : State, s.aside → s.power.state = .run → s.faults.x = none → s.faults.p = none → s.seq.state = .running →
    OrdersOk s.seq → GroupsOk s.seq → ∀ o, s.executing = some o →
    let p := s.platen
    let four : VPos := if p.forward then 4 else -4
    let advances := (∃ n, o.kind = .ret n) ∨ ∃ n, o.kind = .feed n ∧ 8 ≤ n
    (∀ n, o.kind = .ret n → 0 < n → o.phase = .start → s.carriage.state = .moving → s.carriage.use = .order →
      s.carriage.target = min 1599 o.horizontal → s.lift.state ≠ .moving → s.quiet → s.seq.liftToView = false →
      ∃ t, exec .carriageMoveEnd s = .next t ∧
      t.carriage = { s.carriage with state := .idle, position := min 1599 o.horizontal, timer := none } ∧
      t.platen = { p with state := .feeding, remaining := n, forward := true, timer := some 20000 } ∧
      t.seq.queue.head? = some { o with phase := .feeding } ∧ Keeps (.carriage :: .platen :: settleParts) s t) ∧
    (p.state = .feeding → p.remaining ≤ 4 → o.phase = .feeding →
      (∃ n, o.kind = .ret n) ∨ (∃ n, o.kind = .feed n) ∨ o.kind = .paperLoad ∨ o.kind = .paperEject →
      ∀ forward, ∃ t, exec (.platenEncoderEdge forward) s = .next t ∧ Completes o (min 1599 o.horizontal) s t ∧
      t.platen = { p with state := .idle, remaining := 0, timer := none
                          position := if o.kind = .paperLoad then 0 else p.position + four } ∧
      t.seq.ribbonSteps = s.seq.ribbonSteps ∧ t.seq.tapeUnits = s.seq.tapeUnits ∧
      (advances → t.memory = s.memory.nextLine ∧ t.comp.line.map (·.start) = s.comp.line.map (·.start)) ∧
      (¬ advances → t.memory = s.memory ∧ t.comp.line = settledCells o s.comp.line) ∧
      Keeps (.platen :: .ink :: .line :: .memory :: settleParts) s t) ∧
    (∀ x, o.kind = .wheelChange x → o.phase = .home → s.wheel.state = .homing → ∀ h, s.wheel.homing = some h →
      h.use = .change →
      let stays := fun (i : Instr) (kind : FaultKind) (mounted required : Option Nat) => ∃ t, exec i s = .next t ∧
        (∃ q, t.seq.queue.head? = some q ∧ q.number = o.number ∧ q.state = .executing) ∧ t.wheel.mounted = mounted ∧
        (∃ f, t.faults.x = some f ∧ f.kind = kind ∧ f.order = some .wheelChange ∧ f.group = o.group ∧
          f.required = required) ∧ t.seq.state = .faulted ∧ Keeps (.wheel :: settleParts) s t
      (h.phase = .search → stays .wheelSearchLimit .wheelHomeFail none none) ∧
      (∀ code, h.phase = .park code →
        stays .wheelRotationTimerExpiry .wheelStall none none ∧
        (h.required = none ∨ h.required = some code → ∃ t, exec .wheelSettled s = .next t ∧ Completes o (min 1599 o.horizontal) s t ∧
          t.wheel.state = .settled ∧ t.wheel.petal = some 0 ∧ t.wheel.mounted = some code ∧ t.wheel.homing = none ∧
          t.comp.wheel = (if h.required = none ∨ s.comp.wheel = none then some code else s.comp.wheel) ∧
          (s.link.tx ≠ none → s.link.notices = [] → t.raised (.wheel .change .mounted (some code) h.required)) ∧
          Keeps (.wheel :: .compWheel :: .ink :: .line :: settleParts) s t) ∧
        (∀ r, h.required = some r → r ≠ code → stays .wheelSettled .wheelMismatch (some code) (some r))))

/-- O60. In start-up the end of the carriage's move sets the print point and brings the wheel homing, which waits for
a closed cover; a stall writes CARRIAGE_STALL and goes on. The wheel homing's end mounts the wheel for composition
too, or writes WHEEL_HOME_FAIL or WHEEL_STALL; the vertical position is 0 and the lift goes to VIEW; at VIEW, or with
LIFT_STALL, the part is in RUN, IDLE or FAULTED, with POWER(RUN). In a wake the first of the two homings to end is
marked; the second brings RUN with POWER(RUN), and the faults of the wake, a stalled carriage and a failed wheel, are
written to the X slot with order kind none; a mismatched wheel's fault is written with its WHEEL notice. In a soft
reset the carriage's end sets the print point, the wheel's end the mounted and the composition wheel, stalls and
failures are written at once, and the second brings RUN, with POWER(RUN) out of STANDBY and SLEEP, and IDLE or
FAULTED. WHEEL(FAILED) carries no id, after a code was read too (log 93), and the wheel that waits for the cover in
start-up is OFF (log 87). Where the rules leave it open the model's choices are logs 11, 40, 48, 87, 93. (R55, R56,
R78, R88, R91, R95, R96, R102, R158, R184, R185, R186) -/
def Obligations.HomingsEnd : Prop :=
  ∀ s : State, OrdersOk s.seq → s.executing = none → s.seq.recovery = {} → s.selfTest = none → s.power.entering = none →
    s.power.deepOff = none → s.seq.liftToView = false →
    let c := s.carriage
    let w := s.wheel
    let arrived : Carriage := { c with state := .idle, position := c.target, timer := none }
    let still := s.seq.queue = [] ∧ s.seq.stage = []
    let raises := fun (n : Notice) (t : State) => s.link.tx ≠ none → s.link.notices = [] → t.raised n
    let mounts := fun (code : Nat) (t : State) => t.wheel.state = .settled ∧ t.wheel.petal = some 0 ∧
      t.wheel.mounted = some code ∧ t.wheel.homing = none
    let unmounts := fun (t : State) => t.wheel.state = .unknown ∧ t.wheel.petal = none ∧ t.wheel.mounted = none ∧
      t.wheel.homing = none ∧ t.comp.wheel = s.comp.wheel
    let runs := fun (t : State) => t.power.state = .run ∧ (s.power.state ≠ .run → raises (.power .run) t) ∧
      (s.seq.state = .stopped → still →
        t.seq.state = if t.faults.x = none ∧ t.faults.p = none then .idle else .faulted)
    (s.power.state = .starting → s.power.wake = none → s.power.softReset = none → s.seq.state = .stopped → still →
      let homes := fun (t : State) => t.power.state = .starting ∧ t.power.startUp = some .wheel ∧
        t.wheel.state = (if s.levels.closed then .homing else .off) ∧
        t.wheel.homing = some ⟨.startUp, none, if s.levels.closed then .search else .waiting⟩
      let lifts := fun (t : State) => t.platen = { s.platen with position := 0 } ∧ t.comp.vTarget = 0 ∧
        (s.lift.state = .held .view → t.power.startUp = none ∧ runs t) ∧
        (s.lift.state = .held .print → s.quiet → t.power.state = .starting ∧ t.power.startUp = some .lift ∧
          t.lift = { s.lift with state := .moving, target := .view, viaView := false, use := .startUp, timer := some 30000 })
      (s.power.startUp = some .carriage → c.use = .startUp →
        (c.state = .moving → ∃ t, exec .carriageMoveEnd s = .next t ∧ t.carriage = arrived ∧
          t.seq.printPoint = c.target ∧ homes t ∧ Keeps (.carriage :: .wheel :: .ink :: settleParts) s t) ∧
        (∀ i, c.failsAt i = true → ∃ t, exec i s = .next t ∧
          t.carriage.state = .lost ∧ WritesFault .carriageStall none s t ∧ homes t ∧
          Keeps (.carriage :: .wheel :: .openValues :: settleParts) s t)) ∧
      (s.power.startUp = some .wheel → w.state = .homing → ∀ h, w.homing = some h → h.use = .startUp →
        (∀ code, h.phase = .park code → h.required = none → ∃ t, exec .wheelSettled s = .next t ∧ mounts code t ∧
          t.comp.wheel = some code ∧ raises (.wheel .start .mounted (some code) none) t ∧ t.faults = s.faults ∧ lifts t ∧
          Keeps (.wheel :: .compWheel :: .platen :: .vTarget :: .relocate :: settleParts) s t) ∧
        (∀ i kind, h.failsAt i = some kind → ∃ t, exec i s = .next t ∧ unmounts t ∧
          raises (.wheel .start .failed none h.required) t ∧ WritesFault kind none s t ∧ lifts t ∧
          Keeps (.wheel :: .platen :: .vTarget :: .relocate :: settleParts) s t)) ∧
      (s.power.startUp = some .lift → s.lift.state = .moving → s.lift.use = .startUp → s.lift.target = .view →
        s.lift.viaView = false →
        (∃ t, exec (.liftSwitchChange false true) s = .next t ∧ t.lift = { s.lift with state := .held .view, timer := none } ∧
          t.faults = s.faults ∧ t.power.startUp = none ∧ runs t ∧ Keeps (.pins :: settleParts) s t) ∧
        (∃ t, exec .liftTimerExpiry s = .next t ∧ t.lift = { s.lift with state := .unknown, timer := none } ∧
          WritesFault .liftStall none s t ∧ t.power.startUp = none ∧ runs t ∧ Keeps settleParts s t))) ∧
    (∀ k, s.power.wake = some k → s.power.state = .standby ∨ s.power.state = .sleep → s.power.startUp = none →
      s.power.softReset = none → s.seq.state ≠ .stopped → s.faults.x = none → s.faults.p = none →
      let ends := fun (other : Part) (next : Wake) (t : State) =>
        (other = .done → t.power.wake = none ∧ runs t ∧ (next.faults = [] → still → t.faults = s.faults) ∧
          ∀ f more, next.faults = f :: more → (∃ x, t.faults.x = some x ∧ x.kind = f.1 ∧ x.order = none ∧
            x.required = f.2) ∧ (s.seq.state ≠ .stopped → t.seq.state = .faulted)) ∧
        (other ≠ .done → t.power.wake = some next ∧ t.power.state = s.power.state)
      (c.use = .wake →
        (c.state = .moving → ∃ t, exec .carriageMoveEnd s = .next t ∧ t.carriage = arrived ∧
          ends k.wheel { k with carriage := .done } t ∧ Keeps (.carriage :: settleParts) s t) ∧
        (∀ i, c.failsAt i = true → ∃ t, exec i s = .next t ∧
          t.carriage.state = .lost ∧
          ends k.wheel { k with carriage := .done, faults := k.faults ++ [(.carriageStall, none)] } t ∧
          Keeps (.carriage :: .openValues :: settleParts) s t)) ∧
      (w.state = .homing → ∀ h, w.homing = some h → h.use = .wake →
        (∀ code, h.phase = .park code → ∃ t, exec .wheelSettled s = .next t ∧ mounts code t ∧
          (h.required = none ∨ h.required = some code → raises (.wheel .wake .mounted (some code) h.required) t ∧
            t.comp.wheel = (s.comp.wheel.or (some code)) ∧ ends k.carriage { k with wheel := .done } t) ∧
          (h.required ≠ none → h.required ≠ some code → still →
            raises (.wheel .wake .adopted (some code) h.required) t ∧ t.comp.wheel = some code ∧
            ends k.carriage { k with wheel := .done } t) ∧
          (h.required ≠ none → h.required ≠ some code → ¬ still →
            raises (.wheel .wake .mismatch (some code) h.required) t ∧ t.comp.wheel = s.comp.wheel ∧
            (k.faults = [] → WritesFault .wheelMismatch h.required s t) ∧
            (k.carriage = .done → t.power.wake = none ∧ runs t) ∧
            (k.carriage ≠ .done → t.power.wake = some { k with wheel := .done } ∧ t.power.state = s.power.state)) ∧
          Keeps (.wheel :: .compWheel :: settleParts) s t) ∧
        (∀ i kind, h.failsAt i = some kind → ∃ t, exec i s = .next t ∧ unmounts t ∧
          raises (.wheel .wake .failed none h.required) t ∧
          ends k.carriage { k with wheel := .done, faults := k.faults ++ [(kind, none)] } t ∧
          Keeps (.wheel :: settleParts) s t))) ∧
    (∀ r, s.power.softReset = some r → s.power.state = .run ∨ s.power.state = .standby ∨ s.power.state = .sleep →
      s.power.startUp = none → s.power.wake = none → s.seq.state = .stopped →
      let ends := fun (other : Part) (next : Rehoming) (t : State) =>
        (other = .done → t.power.softReset = none ∧ runs t) ∧
        (other ≠ .done → t.power.softReset = some next ∧ t.power.state = s.power.state)
      (c.use = .softReset → (r.wheel = .done ∨ w.homing ≠ none) →
        (c.state = .moving → ∃ t, exec .carriageMoveEnd s = .next t ∧ t.carriage = arrived ∧
          t.seq.printPoint = c.target ∧ ends r.wheel { r with carriage := .done } t ∧
          Keeps (.carriage :: .ink :: settleParts) s t) ∧
        (∀ i, c.failsAt i = true → ∃ t, exec i s = .next t ∧
          t.carriage.state = .lost ∧ WritesFault .carriageStall none s t ∧ ends r.wheel { r with carriage := .done } t ∧
          Keeps (.carriage :: .openValues :: settleParts) s t)) ∧
      (w.state = .homing → c.state ≠ .lost → ∀ h, w.homing = some h → h.use = .softReset →
        (∀ code, h.phase = .park code → h.required = none → ∃ t, exec .wheelSettled s = .next t ∧ mounts code t ∧
          (s.comp.wheel = none ∨ s.seq.queue = [] → t.comp.wheel = some code) ∧
          raises (.wheel .reset .mounted (some code) none) t ∧ ends r.carriage { r with wheel := .done } t ∧
          Keeps (.wheel :: .compWheel :: settleParts) s t) ∧
        (∀ i kind, h.failsAt i = some kind → ∃ t, exec i s = .next t ∧ unmounts t ∧
          raises (.wheel .reset .failed none h.required) t ∧ WritesFault kind none s t ∧
          ends r.carriage { r with wheel := .done } t ∧ Keeps (.wheel :: settleParts) s t)))
end

