-- ==== Sys2Proof/Laws/Frames.lean ====
section
/-! SUPPORT. What the shared operations leave alone: for each operation the parts of the state that it may change.
The frames of the commands follow from these by `Same.trans` and `Same.mono`. -/

set_option Elab.async false

namespace Sys2Proof.Machine

/-! ## The algebra of frames -/

theorem Piece.same_refl (p : Piece) (e : Engine) : p.same e e := by
  cases p <;> simp [Piece.same]

theorem Piece.same_trans {p : Piece} {e f g : Engine} (h : p.same e f) (k : p.same f g) : p.same e g := by
  cases p <;> simp only [Piece.same] at h k ⊢ <;> simp_all

theorem Same.refl (xs : List Piece) (e : Engine) : Same xs e e := fun p _ => p.same_refl e

theorem Same.mono {xs ys : List Piece} {e f : Engine} (h : Same xs e f) (sub : xs ⊆ ys) : Same ys e f :=
  fun p hp => h p fun hx => hp (sub hx)

/-- Two changes of the same parts. -/
theorem Same.trans {xs : List Piece} {e f g : Engine} (h : Same xs e f) (k : Same xs f g) : Same xs e g :=
  fun p hp => Piece.same_trans (h p hp) (k p hp)

/-- A change of some parts, then of some others. -/
theorem Same.next {xs ys zs : List Piece} {e f g : Engine} (h : Same xs e f) (k : Same ys f g) (hx : xs ⊆ zs := by decide)
    (hy : ys ⊆ zs := by decide) : Same zs e g :=
  (h.mono hx).trans (k.mono hy)

theorem Same.ite {xs : List Piece} {e f g : Engine} {c : Prop} [Decidable c] (h : Same xs e f) (k : Same xs e g) :
    Same xs e (if c then f else g) := by
  split <;> assumption

theorem Same.foldl {α : Type} {xs : List Piece} (f : Engine → α → Engine) (h : ∀ e a, Same xs e (f e a)) (l : List α)
    (e : Engine) : Same xs e (l.foldl f e) := by
  induction l generalizing e with
  | nil => exact .refl _ _
  | cons a l ih => exact (h e a).trans (ih _)

/-! ## Link and display -/

theorem offer_same (n : Notice) (e : Engine) : Same [.outgoing, .message] e (e.offer n) := by
  have hp : ∀ l : Link, l.pump.rx = l.rx := fun l => by unfold Link.pump; split <;> (try split) <;> rfl
  have hs : ∀ (t : Option (List Byte)) (d : Display), (d.showText t).lit = d.lit ∧ (d.showText t).phaseOn = d.phaseOn ∧
      (d.showText t).blinkTimer = d.blinkTimer ∧ (d.showText t).window = d.window ∧
      (d.showText t).override = d.override ∧ (d.showText t).overrideTimer = d.overrideTimer := fun t d => by
    unfold Display.showText; split <;> simp
  intro p h
  unfold Engine.offer
  split
  · exact p.same_refl e
  · cases p <;> first
      | exact absurd (by decide) h
      | (simp only [Piece.same, hp, hs] <;> (and_intros <;> first | rfl | exact True.intro))

theorem bell_same (r : Bell) (e : Engine) : Same [.outgoing, .message] e (e.bell r) := offer_same _ e

theorem offerAll_same (ns : List Notice) (e : Engine) : Same [.outgoing, .message] e (e.offerAll ns) :=
  Same.foldl _ (fun e n => offer_same n e) ns e

theorem joinReply_same (typ : Byte) (payload : List Byte) (closing : Bool) (e : Engine) :
    Same [.outgoing] e (e.joinReply typ payload closing) := by
  have hp : ∀ l : Link, l.pump.rx = l.rx := fun l => by unfold Link.pump; split <;> (try split) <;> rfl
  intro p h
  cases p <;> first
    | exact absurd (by decide) h
    | (simp only [Piece.same, Engine.joinReply, hp] <;> (and_intros <;> first | rfl | exact True.intro))

/-- A reply changes what its operation changes, the outgoing line, and the count of open values. -/
theorem reply_same {xs : List Piece} (typ : Byte) (op : Engine → List Byte × Engine) (h : ∀ e, Same xs e (op e).2)
    (e : Engine) : Same (xs ++ [.outgoing, .openValues]) e (e.reply typ op) := by
  have free : ∀ (f : Engine) (n : Nat), Same [.openValues] f { f with free := n } := fun f n p hp => by
    cases p <;> first | exact absurd (by decide) hp | (simp only [Piece.same] <;> (and_intros <;> first | rfl | exact True.intro))
  have tx : ∀ (f : Engine) (o : Option Outgoing), Same [.outgoing] f { f with link := { f.link with tx := o } } :=
    fun f o p hp => by
      cases p <;> first | exact absurd (by decide) hp | (simp only [Piece.same] <;> (and_intros <;> first | rfl | exact True.intro))
  have hx : xs ⊆ xs ++ [.outgoing, .openValues] := List.subset_append_left _ _
  have ho : [Piece.outgoing] ⊆ xs ++ [.outgoing, .openValues] := by simp
  have hf : [Piece.openValues] ⊆ xs ++ [.outgoing, .openValues] := by simp
  unfold Engine.reply
  simp only
  split
  · exact ((((tx e _).mono ho).trans ((h _).mono hx)).trans (((tx _ _).mono ho).trans ((free _ _).mono hf))).trans
      ((joinReply_same _ _ _ _).mono ho)
  · split
    · exact ((((h e).mono hx).trans ((free _ _).mono hf))).trans ((joinReply_same _ _ _ _).mono ho)
    · exact ((h e).mono hx).trans ((joinReply_same _ _ _ _).mono ho)

theorem checked_same {xs : List Piece} (typ : Byte) (ok : Bool) (refusal : Status → List Byte) (off : Bool)
    (op : Engine → Engine) (h : ∀ e, Same xs e (op e)) (e : Engine) :
    Same (xs ++ [.outgoing, .message]) e (e.checked typ ok refusal off op) := by
  have hx : xs ⊆ xs ++ [.outgoing, .message] := List.subset_append_left _ _
  have hn : [Piece.outgoing, .message] ⊆ xs ++ [.outgoing, .message] := List.subset_append_right _ _
  have ho : [Piece.outgoing] ⊆ xs ++ [.outgoing, .message] := by simp
  unfold Engine.checked
  split
  · exact (offer_same _ e).mono hn
  · split
    · exact (joinReply_same _ _ _ e).mono ho
    · split
      · exact (joinReply_same _ _ _ e).mono ho
      · exact (h e).mono hx

theorem answer_same {xs : List Piece} (typ : Byte) (ok : Bool) (refusal : Status → List Byte) (off : Bool)
    (op : Engine → List Byte × Engine) (h : ∀ e, Same xs e (op e).2) (e : Engine) :
    Same (xs ++ [.outgoing, .openValues] ++ [.outgoing, .message]) e (e.answer typ ok refusal off op) :=
  checked_same typ ok refusal off _ (reply_same _ op h) e

theorem refresh_same (e : Engine) : Same [] e e.refresh := by
  intro p _
  cases p <;> simp [Piece.same, Engine.refresh]

end Sys2Proof.Machine
end

