-- ==== Sys2Proof/Laws/FramesQueue.lean ====
section
/-! SUPPORT. What the operations over records, words, the line, the channels, the faults and the strike queue leave
alone. -/

set_option Elab.async false

namespace Sys2Proof.Machine

/-! ## Records -/

theorem forget_same (slots : List Nat) (e : Engine) : Same [.queue, .line] e (e.forget slots) := by
  intro p h
  unfold Engine.forget
  split
  · exact p.same_refl e
  · cases p <;> first
      | exact absurd (by decide) h
      | (simp only [Piece.same] <;> (and_intros <;> first | rfl | exact True.intro))

theorem withRecords_same (m : Memory) (e : Engine) : Same [.memory] e { e with memory := m } := by
  intro p h
  cases p <;> first
    | exact absurd (by decide) h
    | (simp only [Piece.same] <;> (and_intros <;> first | rfl | exact True.intro))

theorem removeRecords_same (gone : Record → Bool) (e : Engine) :
    Same [.memory, .queue, .line] e (e.removeRecords gone) :=
  (withRecords_same _ e).next (forget_same _ _)

theorem emptyMemory_same (e : Engine) : Same [.memory, .queue, .line] e e.emptyMemory := removeRecords_same _ e

theorem makeRoom_same (e : Engine) : Same [.memory, .queue, .line] e e.makeRoom := by
  unfold Engine.makeRoom
  split
  · exact .ite (removeRecords_same _ e) (.refl _ e)
  · exact .refl _ e

theorem advanceGeneration_same (e : Engine) : Same [.memory, .queue, .line] e e.advanceGeneration :=
  (withRecords_same _ e).next (removeRecords_same _ _)

theorem withSeqQueue_same (q st : List Order) (e : Engine) : Same [.queue] e ({ e with seq := { e.seq with queue := q, stage := st } }) := by
  intro p h
  cases p <;> first
    | exact absurd (by decide) h
    | (simp only [Piece.same] <;> (and_intros <;> first | rfl | exact True.intro))

theorem editOrder_same (n : Nat) (f : Order → Order) (e : Engine) : Same [.queue] e (e.editOrder n f) := by
  intro p h
  cases p <;> first
    | exact absurd (by decide) h
    | (simp only [Piece.same, Engine.editOrder] <;> (and_intros <;> first | rfl | exact True.intro))

theorem firstFire_same (o : Order) (f : StrikeFields) (name : FireName) (e : Engine) :
    Same [.memory, .queue, .line] e (e.firstFire o f name) :=
  ((makeRoom_same e).trans ((withRecords_same _ _).mono (by decide))).next
    ((withSeqQueue_same _ _ _).trans (editOrder_same _ _ _))

theorem laterFire_same (o : Order) (name : FireName) (e : Engine) : Same [.memory, .queue] e (e.laterFire o name) := by
  unfold Engine.laterFire
  simp only
  split
  · exact (editOrder_same _ _ e).next (withRecords_same _ _)
  · exact (editOrder_same _ _ e).mono (by decide)

theorem liftFire_same (o : Order) (name : FireName) (e : Engine) :
    Same [.memory, .queue, .line] e (e.liftFire o name) := by
  unfold Engine.liftFire
  simp only
  split
  · exact (editOrder_same _ _ e).next ((withRecords_same _ _).next (removeRecords_same _ _) (zs := [.memory, .queue, .line]))
  · exact (editOrder_same _ _ e).mono (by decide)

/-! ## Words -/

theorem serveLookups_same (e : Engine) : Same [.words, .port] e e.serveLookups := by
  intro p h
  unfold Engine.serveLookups
  split
  · split
    · cases p <;> first
        | exact absurd (by decide) h
        | (simp only [Piece.same] <;> (and_intros <;> first | rfl | exact True.intro))
    · exact p.same_refl e
  · exact p.same_refl e

/-- A change of the word table and the lookups that keeps the rest of the checker. -/
theorem withWords_same (ws : List WordEntry) (id : WordId) (ls : List Lookup) (e : Engine) :
    Same [.words] e { e with spell := { e.spell with words := ws, lastWord := id, lookups := ls } } := by
  intro p h
  cases p <;> first
    | exact absurd (by decide) h
    | (simp only [Piece.same] <;> (and_intros <;> first | rfl | exact True.intro))

theorem join_shape (w : WordEntry) (s : Spelling) : ∃ ws ls, s.join w = { s with words := ws, lookups := ls } := by
  unfold Spelling.join
  simp only
  split
  · split
    · exact ⟨_, _, rfl⟩
    · exact ⟨_, _, rfl⟩
  · exact ⟨_, _, rfl⟩

theorem withWord_same (w : Option WordId) (e : Engine) : Same [.word] e ({ e with comp := { e.comp with word := w } }) := by
  intro p h
  cases p <;> first
    | exact absurd (by decide) h
    | (simp only [Piece.same] <;> (and_intros <;> first | rfl | exact True.intro))

theorem openWord_same (x : Nat) (e : Engine) : Same [.words, .word] e (e.openWord x) := by
  obtain ⟨ws, ls, hj⟩ := join_shape
    { id := e.spell.lastWord + 1, letters := [], overlong := false, state := .opened, epoch := 0
      vertical := e.comp.vTarget, start := x } e.spell
  unfold Engine.openWord
  simp only [hj]
  exact (withWords_same ws (e.spell.lastWord + 1) ls e).next (withWord_same _ _)

theorem handEdited_same (id : WordId) (e : Engine) : Same [.words] e (e.handEdited id) := by
  unfold Engine.handEdited
  split
  · exact withWords_same _ e.spell.lastWord _ e
  · simp only
    obtain ⟨ws, ls, hj⟩ := join_shape
      { id := id, letters := [], overlong := false, state := .opened, epoch := 0, vertical := e.comp.vTarget
        start := ((e.comp.line.find? fun c => c.word = some id).map (·.start)).getD 0 } e.spell
    simp only [hj]
    exact withWords_same ws e.spell.lastWord ls e

theorem handDeleted_same (id : WordId) (e : Engine) : Same [.words] e (e.handDeleted id) :=
  withWords_same _ e.spell.lastWord _ e

theorem handClosed_same (id : WordId) (e : Engine) : Same [.words, .port] e (e.handClosed id) := by
  unfold Engine.handClosed
  split
  · exact .refl _ e
  · split
    · exact .refl _ e
    · simp only
      split
      · exact (withWords_same _ e.spell.lastWord _ e).next (serveLookups_same _)
      · exact (withWords_same _ e.spell.lastWord _ e).mono (by decide)

theorem closeWord_same (e : Engine) : Same [.words, .port, .word] e e.closeWord := by
  unfold Engine.closeWord
  split
  · exact .refl _ e
  · exact (handClosed_same _ e).next (withWord_same _ _)

theorem editAll_same (ids : List WordId) (e : Engine) : Same [.words] e (e.editAll ids) :=
  Same.foldl _ (fun e id => handEdited_same id e) ids e

theorem closeAll_same (ids : List WordId) (e : Engine) : Same [.words, .port] e (e.closeAll ids) :=
  Same.foldl _ (fun e id => handClosed_same id e) ids e

theorem deleteAll_same (ids : List WordId) (e : Engine) : Same [.words] e (e.deleteAll ids) :=
  Same.foldl _ (fun e id => handDeleted_same id e) ids e

theorem lookupLeaves_same (e : Engine) : Same [.words, .port] e e.lookupLeaves :=
  (withWords_same _ e.spell.lastWord _ e).next (serveLookups_same _)

theorem verdict_same (l : Lookup) (found : Bool) (e : Engine) :
    Same [.words, .port, .outgoing, .message] e (e.verdict l found) := by
  unfold Engine.verdict
  split
  · exact (lookupLeaves_same e).mono (by decide)
  · split
    · exact (withWords_same _ e.spell.lastWord _ e).next (lookupLeaves_same _)
    · exact (withWords_same _ e.spell.lastWord _ e).next
        ((lookupLeaves_same _).next (offer_same _ _) (zs := [.words, .port, .outgoing, .message]))

theorem lookupFails_same (e : Engine) : Same [.words, .dictionary, .outgoing, .message] e e.lookupFails := by
  have h : Same [.words, .dictionary] e
      { e with spell := { e.spell with dict := .failed, lookups := [], words := uncheckPending e.spell.words } } := by
    intro p h
    cases p <;> first
      | exact absurd (by decide) h
      | (simp only [Piece.same] <;> (and_intros <;> first | rfl | exact True.intro))
  exact h.next (offer_same _ _)

/-! ## The line -/

theorem reindex_same (e : Engine) : Same [.line, .window] e (e.reindex) := by
  intro p h
  cases p <;> first
    | exact absurd (by decide) h
    | (simp only [Piece.same, Engine.reindex] <;> (and_intros <;> first | rfl | exact True.intro))

theorem withLine_same (l : List Cell) (e : Engine) : Same [.line, .window] e (e.withLine l) := by
  intro p h
  cases p <;> first
    | exact absurd (by decide) h
    | (simp only [Piece.same, Engine.withLine, Engine.reindex] <;> (and_intros <;> first | rfl | exact True.intro))

theorem moveCursor_same (x : Nat) (e : Engine) : Same [.cursor, .line, .window] e (e.moveCursor x) := by
  intro p h
  cases p <;> first
    | exact absurd (by decide) h
    | (simp only [Piece.same, Engine.moveCursor, Engine.reindex] <;> (and_intros <;> first | rfl | exact True.intro))

theorem place_same (c : Cell) (e : Engine) : Same [.line, .window, .words] e (e.place c) := by
  unfold Engine.place
  simp only
  split
  · exact (withLine_same _ e).next (handEdited_same _ _)
  · exact (withLine_same _ e).mono (by decide)

theorem findWord_same (x : Nat) (e : Engine) : Same [.words, .word] e (e.findWord x) := by
  unfold Engine.findWord
  split
  · exact .refl _ e
  · split
    · split
      · split
        · exact (handEdited_same _ e).next (withWord_same _ _)
        · exact openWord_same x e
      · exact openWord_same x e
    · exact openWord_same x e

theorem rebuild_same (e : Engine) : Same [.line, .window, .word] e e.rebuild :=
  (withWord_same none e).next (withLine_same _ _)

theorem withRelocate_same (h : Nat) (v : VPos) (e : Engine) : Same [.relocate] e ({ e with comp := { e.comp with relocateH := h, relocateV := v } }) := by
  intro p h
  cases p <;> first
    | exact absurd (by decide) h
    | (simp only [Piece.same] <;> (and_intros <;> first | rfl | exact True.intro))

theorem withVTarget_same (v : VPos) (e : Engine) : Same [.vTarget] e ({ e with comp := { e.comp with vTarget := v } }) := by
  intro p h
  cases p <;> first
    | exact absurd (by decide) h
    | (simp only [Piece.same] <;> (and_intros <;> first | rfl | exact True.intro))

theorem withTargets_same (v w : VPos) (e : Engine) : Same [.vTarget, .relocate] e ({ e with comp := { e.comp with vTarget := v, relocateV := w } }) := by
  intro p h
  cases p <;> first
    | exact absurd (by decide) h
    | (simp only [Piece.same] <;> (and_intros <;> first | rfl | exact True.intro))

theorem withBell_same (b : Bool) (e : Engine) : Same [.bellFlags] e ({ e with comp := { e.comp with bellRung := b } }) := by
  intro p h
  cases p <;> first
    | exact absurd (by decide) h
    | (simp only [Piece.same] <;> (and_intros <;> first | rfl | exact True.intro))

theorem withRelease_same (b : Bool) (e : Engine) : Same [.bellFlags] e ({ e with comp := { e.comp with marginRelease := b } }) := by
  intro p h
  cases p <;> first
    | exact absurd (by decide) h
    | (simp only [Piece.same] <;> (and_intros <;> first | rfl | exact True.intro))

theorem updateRelocate_same (v : VPos) (e : Engine) : Same [.relocate] e (e.updateRelocate v) :=
  .ite (.refl _ e) (withRelocate_same _ _ e)

theorem bellTest_same (e : Engine) : Same [.bellFlags, .outgoing, .message] e e.bellTest :=
  .ite ((withBell_same true e).next (bell_same _ _)) (.refl _ e)

theorem knob_same (shift : VPos) (e : Engine) :
    Same [.vTarget, .relocate, .memory, .queue, .line] e (e.knob shift) :=
  (withTargets_same _ _ e).next (emptyMemory_same _)

/-! ## The motion channels -/

theorem withCarriage_same (c : Carriage) (e : Engine) : Same [.carriage] e ({ e with carriage := c }) := by
  intro p h
  cases p <;> first
    | exact absurd (by decide) h
    | (simp only [Piece.same] <;> (and_intros <;> first | rfl | exact True.intro))

theorem withWheel_same (w : Wheel) (e : Engine) : Same [.wheel] e ({ e with wheel := w }) := by
  intro p h
  cases p <;> first
    | exact absurd (by decide) h
    | (simp only [Piece.same] <;> (and_intros <;> first | rfl | exact True.intro))

theorem withPlaten_same (q : Platen) (e : Engine) : Same [.platen] e ({ e with platen := q }) := by
  intro p h
  cases p <;> first
    | exact absurd (by decide) h
    | (simp only [Piece.same] <;> (and_intros <;> first | rfl | exact True.intro))

theorem withLift_same (l : Lift) (e : Engine) : Same [.lift] e ({ e with lift := l }) := by
  intro p h
  cases p <;> first
    | exact absurd (by decide) h
    | (simp only [Piece.same] <;> (and_intros <;> first | rfl | exact True.intro))

theorem withHammer_same (k : Hammer) (e : Engine) : Same [.hammer] e ({ e with hammer := k }) := by
  intro p h
  cases p <;> first
    | exact absurd (by decide) h
    | (simp only [Piece.same] <;> (and_intros <;> first | rfl | exact True.intro))

theorem withPins_same (k : Pins) (e : Engine) : Same [.pins] e ({ e with pins := k }) := by
  intro p h
  cases p <;> first
    | exact absurd (by decide) h
    | (simp only [Piece.same] <;> (and_intros <;> first | rfl | exact True.intro))

theorem withDriven_same (c : Carriage) (n : Nat) (e : Engine) : Same [.carriage, .openValues] e ({ e with carriage := c, free := n }) := by
  intro p h
  cases p <;> first
    | exact absurd (by decide) h
    | (simp only [Piece.same] <;> (and_intros <;> first | rfl | exact True.intro))

theorem withPulse_same (k : Hammer) (q : Pins) (e : Engine) : Same [.hammer, .pins] e ({ e with hammer := k, pins := q }) := by
  intro p h
  cases p <;> first
    | exact absurd (by decide) h
    | (simp only [Piece.same] <;> (and_intros <;> first | rfl | exact True.intro))

theorem withFree_same (n : Nat) (e : Engine) : Same [.openValues] e ({ e with free := n }) := by
  intro p h
  cases p <;> first
    | exact absurd (by decide) h
    | (simp only [Piece.same] <;> (and_intros <;> first | rfl | exact True.intro))

theorem homeCarriage_same (use : CarriageUse) (after : AfterHoming) (e : Engine) :
    Same [.carriage] e (e.homeCarriage use after) := withCarriage_same _ e

theorem carriageTo_same (x : Nat) (use : CarriageUse) (e : Engine) : Same [.carriage] e (e.carriageTo x use) := by
  unfold Engine.carriageTo
  simp only
  split
  · exact .ite (.refl _ e) (withCarriage_same _ e)
  · exact homeCarriage_same _ _ e
  · exact .refl _ e
  · exact .refl _ e
  · exact .refl _ e

theorem readCounter_same (e : Engine) : Same [.carriage, .openValues] e e.readCounter := by
  unfold Engine.readCounter
  split
  · exact withDriven_same _ _ e
  · exact .ite (withDriven_same _ _ e) (.refl _ e)
  · exact .refl _ e
  · exact .refl _ e
  · exact .refl _ e

theorem loseCarriage_same (e : Engine) : Same [.carriage, .openValues] e e.loseCarriage :=
  (readCounter_same e).next (withCarriage_same _ _)

theorem stopCarriage_same (e : Engine) : Same [.carriage, .openValues] e e.stopCarriage :=
  .ite (loseCarriage_same e) (.refl _ e)

theorem rotateTo_same (n : Nat) (e : Engine) : Same [.wheel] e (e.rotateTo n) :=
  .ite (withWheel_same _ e) (.refl _ e)

theorem homeWheel_same (use : HomingUse) (required : Option Nat) (e : Engine) :
    Same [.wheel] e (e.homeWheel use required) :=
  .ite (withWheel_same _ e) (withWheel_same _ e)

theorem feed_same (steps : Int) (e : Engine) : Same [.platen] e (e.feed steps) :=
  .ite (.refl _ e) (withPlaten_same _ e)

theorem liftTo_same (target : LiftTarget) (use : LiftUse) (e : Engine) : Same [.lift] e (e.liftTo target use) := by
  unfold Engine.liftTo
  simp only
  split
  · exact .ite (.refl _ e) (withLift_same _ e)
  · exact .ite (.ite (withLift_same _ e) (withLift_same _ e)) (withLift_same _ e)
  · exact .refl _ e

theorem tryLift_same (target : LiftTarget) (use : LiftUse) (e : Engine) : Same [.lift] e (e.tryLift target use) :=
  .ite (liftTo_same _ _ e) (.refl _ e)

theorem stopLift_same (e : Engine) : Same [.lift] e e.stopLift := .ite (withLift_same _ e) (.refl _ e)

theorem pulse_same (t : Nat) (e : Engine) : Same [.hammer, .pins] e (e.pulse t) :=
  withPulse_same _ _ e

/-! ## Faults -/

theorem showFault_shape (f : FaultRecord) (d : Display) :
    ∃ m t, d.showFault f = { d with message := m, holdTimer := t } := by
  unfold Display.showFault
  split
  · exact ⟨_, _, rfl⟩
  · exact ⟨d.message, d.holdTimer, rfl⟩

theorem withFaults_same (f : FaultRecord) (m : Message) (t : Timer) (e : Engine) : Same [.faults, .message] e ({ e with faults := f, display := { e.display with message := m, holdTimer := t } }) := by
  intro p h
  cases p <;> first
    | exact absurd (by decide) h
    | (simp only [Piece.same] <;> (and_intros <;> first | rfl | exact True.intro))

theorem withFaulted_same (st : SeqState) (t : Timer) (v : Bool) (e : Engine) : Same [.queue] e ({ e with seq := { e.seq with state := st, viewTimer := t, liftToView := v } }) := by
  intro p h
  cases p <;> first
    | exact absurd (by decide) h
    | (simp only [Piece.same] <;> (and_intros <;> first | rfl | exact True.intro))

theorem becomeFaulted_same (kind : FaultKind) (e : Engine) : Same [.queue] e (e.becomeFaulted kind) := by
  unfold Engine.becomeFaulted
  simp only
  exact .ite (.refl _ e) (.ite (.ite (withFaulted_same e.seq.state e.seq.viewTimer false e) (.refl _ e))
    (withFaulted_same _ _ _ e))

/-- The parts that a fault may change. -/
def faultParts : List Piece := [.faults, .message, .queue, .outgoing]

theorem writeFault_same (slot : SlotName) (new : FaultSlot) (e : Engine) :
    Same faultParts e (e.writeFault slot new) := by
  have show' : ∀ (f : FaultRecord) (d : Engine), Same [.faults, .message] d
      { d with faults := f, display := d.display.showFault f } := fun f d => by
    obtain ⟨m, t, hd⟩ := showFault_shape f d.display
    rw [hd]
    exact withFaults_same f m t d
  unfold Engine.writeFault
  simp only
  refine .ite (Same.trans ?_ ((offer_same _ _).mono (by decide))) ?_
  · exact Same.trans ((show' _ e).mono (by decide)) ((becomeFaulted_same _ _).mono (by decide))
  · exact Same.trans ((show' _ e).mono (by decide)) ((becomeFaulted_same _ _).mono (by decide))

/-- The order named changes the fault record alone. -/
theorem nameOrder_same (o : Order) (e : Engine) : Same [.faults] e (e.nameOrder o) := by
  intro p h
  cases p <;> first
    | exact absurd (by decide) h
    | (simp only [Piece.same]; and_intros <;> rfl)

theorem writeHeld_same (e : Engine) : Same faultParts e e.writeHeld := by
  unfold Engine.writeHeld
  split
  · exact .refl _ e
  · split
    · exact .refl _ e
    · exact .ite (.refl _ e) (((nameOrder_same _ e).mono (by decide)).trans ((writeFault_same _ _ _).next (editOrder_same _ _ _)))

theorem orderFault_same (kind : FaultKind) (o : Order) (required : Option Nat) (e : Engine) :
    Same faultParts e (e.orderFault kind o required) :=
  (writeFault_same _ _ e).trans (writeHeld_same _)

theorem withSelfTest_same (t : Option SelfTest) (e : Engine) : Same [.selfTest] e ({ e with selfTest := t }) := by
  intro p h
  cases p <;> first
    | exact absurd (by decide) h
    | (simp only [Piece.same] <;> (and_intros <;> first | rfl | exact True.intro))

theorem editTest_same (f : SelfTest → SelfTest) (e : Engine) : Same [.selfTest] e (e.editTest f) := withSelfTest_same _ e

/-- A failure outside an order is a fault, or a result of the running self-test (R102). -/
theorem looseFault_same (kind : FaultKind) (required : Option Nat) (e : Engine) :
    Same (.selfTest :: faultParts) e (e.looseFault kind required) :=
  .ite ((editTest_same _ e).mono (by decide)) ((writeFault_same _ _ e).mono (by decide))

theorem headFault_same (kind : FaultKind) (required : Option Nat) (e : Engine) :
    Same (.selfTest :: faultParts) e (e.headFault kind required) := by
  unfold Engine.headFault
  split
  · exact (orderFault_same _ _ _ e).mono (by decide)
  · exact .ite (looseFault_same _ _ e) ((writeFault_same _ _ e).mono (by decide))

theorem channelFault_same (kind : FaultKind) (e : Engine) : Same (.selfTest :: faultParts) e (e.channelFault kind) := by
  unfold Engine.channelFault
  split
  · exact (orderFault_same _ _ _ e).mono (by decide)
  · exact looseFault_same _ _ e

theorem clearFaults_same (e : Engine) : Same [.faults, .queue, .message] e e.clearFaults := by
  intro p h
  unfold Engine.clearFaults
  split <;> cases p <;> first
    | exact absurd (by decide) h
    | (simp only [Piece.same] <;> (and_intros <;> first | rfl | exact True.intro))

/-! ## The strike queue -/

theorem append_same (kind : OrderKind) (g h : Nat) (v : VPos) (e : Engine) : Same [.queue, .ids] e (e.append kind g h v) := by
  intro p h
  cases p <;> first
    | exact absurd (by decide) h
    | (simp only [Piece.same, Engine.append] <;> (and_intros <;> first | rfl | exact True.intro))

theorem withQueue_same (q : List Order) (e : Engine) : Same [.queue] e ({ e with seq := { e.seq with queue := q } }) := by
  intro p h
  cases p <;> first
    | exact absurd (by decide) h
    | (simp only [Piece.same] <;> (and_intros <;> first | rfl | exact True.intro))

theorem withGroups_same (g : List Group) (e : Engine) : Same [.queue] e ({ e with seq := { e.seq with groups := g } }) := by
  intro p h
  cases p <;> first
    | exact absurd (by decide) h
    | (simp only [Piece.same] <;> (and_intros <;> first | rfl | exact True.intro))

theorem withSeqState_same (st : SeqState) (e : Engine) : Same [.queue] e ({ e with seq := { e.seq with state := st } }) := by
  intro p h
  cases p <;> first
    | exact absurd (by decide) h
    | (simp only [Piece.same] <;> (and_intros <;> first | rfl | exact True.intro))

theorem withStageState_same (st : StageState) (e : Engine) : Same [.queue] e ({ e with seq := { e.seq with stageState := st } }) := by
  intro p h
  cases p <;> first
    | exact absurd (by decide) h
    | (simp only [Piece.same] <;> (and_intros <;> first | rfl | exact True.intro))

theorem openGroup_same (kind : GroupKind) (n : Nat) (e : Engine) : Same [.queue, .ids] e (e.openGroup kind n) := by
  intro p h
  cases p <;> first
    | exact absurd (by decide) h
    | (simp only [Piece.same, Engine.openGroup] <;> (and_intros <;> first | rfl | exact True.intro))

theorem loseFrom_same (g : Nat) (f : Group → Group) (e : Engine) : Same [.queue] e (e.loseFrom g f) := by
  intro p h
  cases p <;> first
    | exact absurd (by decide) h
    | (simp only [Piece.same, Engine.loseFrom] <;> (and_intros <;> first | rfl | exact True.intro))

theorem appendMove_same (h : Nat) (e : Engine) : Same [.queue, .ids] e (e.appendMove h) :=
  .ite ((withQueue_same _ e).mono (by decide)) (append_same _ _ _ _ e)

theorem closeGroups_same (e : Engine) : Same [.queue, .outgoing, .message] e e.closeGroups :=
  (withGroups_same _ e).next (offerAll_same _ _)

theorem dropStale_same (o : Order) (e : Engine) : Same [.queue, .outgoing, .message] e (e.dropStale o) :=
  (withQueue_same _ e).next ((loseFrom_same _ _ _).next (closeGroups_same _) (zs := [.queue, .outgoing, .message]))

theorem withStage_same (q st : List Order) (x : StageState) (e : Engine) : Same [.queue] e ({ e with seq := { e.seq with queue := q, stage := st, stageState := x } }) := by
  intro p h
  cases p <;> first
    | exact absurd (by decide) h
    | (simp only [Piece.same] <;> (and_intros <;> first | rfl | exact True.intro))

theorem drain_same (e : Engine) : Same [.queue] e e.drain := .ite (withStage_same _ _ _ e) (.refl _ e)

theorem rouse_same (e : Engine) : Same [.queue] e e.rouse := .ite (withSeqState_same _ e) (.refl _ e)

theorem prepareLoop_same (fuel : Nat) (e : Engine) : Same [.queue, .outgoing, .message] e (prepareLoop fuel e) := by
  induction fuel generalizing e with
  | zero => exact .refl _ e
  | succ n ih =>
    have d : Same [.queue, .outgoing, .message] e e.drain.rouse := (drain_same e).next (rouse_same _)
    unfold prepareLoop
    simp only
    split
    · exact d
    · split
      · split
        · exact d.trans ((dropStale_same _ _).trans (ih _))
        · exact d.next (editOrder_same _ _ _)
      · exact d

theorem prepare_same (e : Engine) : Same [.queue, .outgoing, .message] e e.prepare := prepareLoop_same _ e

theorem heldNow_same (e : Engine) : Same faultParts e e.heldNow := .ite (writeHeld_same e) (.refl _ e)

theorem withRest_same (st : SeqState) (b : Bool) (t : Timer) (e : Engine) : Same [.queue] e ({ e with seq := { e.seq with state := st, pausePending := b, viewTimer := t } }) := by
  intro p h
  cases p <;> first
    | exact absurd (by decide) h
    | (simp only [Piece.same] <;> (and_intros <;> first | rfl | exact True.intro))

theorem withLiftToView_same (b : Bool) (e : Engine) : Same [.queue] e ({ e with seq := { e.seq with liftToView := b } }) := by
  intro p h
  cases p <;> first
    | exact absurd (by decide) h
    | (simp only [Piece.same] <;> (and_intros <;> first | rfl | exact True.intro))

theorem withEntering_same (r s : Option Rest) (c : Bool) (e : Engine) : Same [.power, .standbyTimer] e ({ e with power := { e.power with entering := r, pendingEntry := s, conditions := c } }) := by
  intro p h
  cases p <;> first
    | exact absurd (by decide) h
    | (simp only [Piece.same] <;> (and_intros <;> first | rfl | exact True.intro))

theorem withStandby_same (c : Bool) (t : Timer) (e : Engine) : Same [.standbyTimer] e ({ e with power := { e.power with conditions := c, timer := t } }) := by
  intro p h
  cases p <;> first
    | exact absurd (by decide) h
    | (simp only [Piece.same] <;> (and_intros <;> first | rfl | exact True.intro))

theorem withFound_same (m : Option Nat) (e : Engine) : Same [] e ({ e with wheel := { e.wheel with found := m } }) := by
  intro p h
  cases p <;> first
    | exact absurd (by decide) h
    | (simp only [Piece.same] <;> (and_intros <;> first | rfl | exact True.intro))

theorem rest_same (e : Engine) : Same [.queue] e e.rest := .ite (withRest_same _ _ _ e) (.refl _ e)

theorem viewLift_same (e : Engine) : Same [.queue, .lift] e e.viewLift :=
  .ite ((withLiftToView_same false e).next (liftTo_same _ _ _)) (.refl _ e)

theorem gate_same (e : Engine) : Same [.queue] e e.gate := .ite (withStageState_same _ e) (.refl _ e)

/-- An entry given up changes power control alone. -/
theorem giveUpEntry_same (e : Engine) : Same [.power, .standbyTimer] e e.giveUpEntry :=
  .ite (withEntering_same _ _ _ e) (.refl _ e)

theorem dropEntry_same (e : Engine) : Same [.power, .standbyTimer] e e.dropEntry := .ite (.refl _ e) (giveUpEntry_same e)

theorem standbyUpdate_same (e : Engine) : Same [.standbyTimer] e e.standbyUpdate :=
  .ite (.refl _ e) (.ite (withStandby_same _ _ e) (withStandby_same _ _ e))

/-- What follows an event in the queues changes these parts at most. -/
theorem settle_same (e : Engine) : Same settleParts e e.settle :=
  ((((((gate_same e).next (prepare_same _) (zs := settleParts)).next (heldNow_same _) (zs := settleParts)).next
    (rest_same _) (zs := settleParts)).next (viewLift_same _) (zs := settleParts)).next
    (dropEntry_same _) (zs := settleParts)).next
    ((standbyUpdate_same _).next (withFound_same _ _) (zs := [.standbyTimer]))

end Sys2Proof.Machine
end

