-- ==== Sys2Proof/Laws/FramesPower.lean ====
section
/-! SUPPORT. What the execute stage and power control leave alone, up to `Engine.proceed`. -/

set_option Elab.async false

namespace Sys2Proof.Machine

/-! ## The execute stage -/

theorem withSeqLine_same (q : Sequencer) (l : List Cell) (e : Engine) (h : q.lastGroup = e.seq.lastGroup ∧
    q.nextOrder = e.seq.nextOrder ∧ q.recovery = e.seq.recovery) :
    Same [.queue, .ink, .line] e { e with seq := q, comp := { e.comp with line := l } } := by
  intro p hp
  cases p <;> first
    | exact absurd (by decide) hp
    | (simp only [Piece.same, h] <;> (and_intros <;> first | rfl | exact True.intro))

theorem withCompLine_same (l : List Cell) (e : Engine) : Same [.line] e ({ e with comp := { e.comp with line := l } }) := by
  intro p h
  cases p <;> first
    | exact absurd (by decide) h
    | (simp only [Piece.same] <;> (and_intros <;> first | rfl | exact True.intro))

/-- The parts that an executing order may change. -/
def orderParts : List Piece :=
  [.queue, .ink, .line, .memory, .outgoing, .message, .carriage, .wheel, .platen, .lift, .hammer, .pins]

theorem completeOrder_same (o : Order) (e : Engine) :
    Same [.queue, .ink, .line, .memory, .outgoing, .message] e (e.completeOrder o) := by
  have ink : ∀ (k : OrderKind) (s : Sequencer), (s.advanceInk k).lastGroup = s.lastGroup ∧
      (s.advanceInk k).nextOrder = s.nextOrder ∧ (s.advanceInk k).recovery = s.recovery := fun k s => by
    unfold Sequencer.advanceInk; split <;> simp
  unfold Engine.completeOrder
  simp only
  refine Same.trans ?_ (((loseFrom_same _ _ _).next (closeGroups_same _) (zs := [.queue, .outgoing, .message])).mono
    (by decide))
  refine Same.trans (f := { e with
    seq := (if ((({ e.seq with queue := e.seq.queue.drop 1, printPoint := o.endPosition } : Sequencer).advanceInk
        o.kind)).pausePending = true then
        { (({ e.seq with queue := e.seq.queue.drop 1, printPoint := o.endPosition } : Sequencer).advanceInk o.kind) with
          state := .paused, pausePending := false, viewTimer := viewTime }
      else (({ e.seq with queue := e.seq.queue.drop 1, printPoint := o.endPosition } : Sequencer).advanceInk o.kind))
    comp := { e.comp with line := e.comp.line.map (·.settled o) } }) ?_ ?_
  · refine (withSeqLine_same _ _ e ?_).mono (by decide)
    split <;> simp [ink]
  · exact .ite ((advanceGeneration_same _).mono (by decide)) (.refl _ _)

theorem fireEvent_same (o : Order) (f : Fire) (e : Engine) : Same [.memory, .queue, .line] e (e.fireEvent o f) := by
  unfold Engine.fireEvent
  split
  · exact .ite (firstFire_same _ _ _ e) ((laterFire_same _ _ e).mono (by decide))
  · exact liftFire_same _ _ e
  · exact .refl _ e

theorem command_same (o : Order) (f : Fire) (e : Engine) :
    Same [.hammer, .pins, .memory, .queue, .line] e (e.command o f) := by
  unfold Engine.command
  split
  · exact (pulse_same _ e).next (fireEvent_same _ _ _)
  · exact .ite (.refl _ e) ((withHammer_same _ e).mono (by decide))
  · exact .refl _ e
  · exact .refl _ e
  · exact .refl _ e

theorem position_same (f : Fire) (q : LiftTarget) (e : Engine) :
    Same [.wheel, .carriage, .lift] e (e.position f q) := by
  have turn : ∀ d : Engine, Same [.wheel, .carriage, .lift] d
      (match f.petal with
        | some n => d.rotateTo n
        | none => d) := fun d => by
    split
    · exact (rotateTo_same _ d).mono (by decide)
    · exact .refl _ d
  have go : ∀ d : Engine, Same [.wheel, .carriage, .lift] d
      ((if d.carriage.at f.position then d else d.carriageTo f.position .order).liftTo q .order) := fun d =>
    (Same.ite (.refl _ d) (carriageTo_same _ _ d)).next (liftTo_same _ _ _)
  unfold Engine.position
  split
  · exact .refl _ e
  · split
    · split
      · exact (homeWheel_same _ _ e).mono (by decide)
      · exact .refl _ e
    · exact (turn e).trans (.ite (go _) (.refl _ _))

theorem advanceFires_same (o : Order) (e : Engine) : Same orderParts e (e.advanceFires o) := by
  unfold Engine.advanceFires
  split
  · exact .ite ((completeOrder_same o e).mono (by decide)) (.refl _ e)
  · exact .ite ((command_same _ _ e).mono (by decide)) ((position_same _ _ e).mono (by decide))

theorem setPhase_same (o : Order) (ph : Phase) (e : Engine) : Same [.queue] e (e.setPhase o ph) := editOrder_same _ _ e

theorem startFeed_same (o : Order) (steps : Int) (e : Engine) : Same orderParts e (e.startFeed o steps) :=
  .ite ((completeOrder_same o e).mono (by decide)) ((setPhase_same _ _ e).next (feed_same _ _))

theorem toView_same (o : Order) (e : Engine) : Same [.carriage, .lift] e (e.toView o) :=
  .ite ((carriageTo_same _ _ e).next (liftTo_same _ _ _)) (.refl _ e)

theorem paperDone_same (o : Order) (e : Engine) : Same orderParts e (e.paperDone o) := by
  have k : Same [.platen] e
      (if o.kind = .paperLoad then { e with platen := { e.platen with position := 0 } } else e) :=
    .ite (withPlaten_same _ e) (.refl _ e)
  exact k.next (completeOrder_same o _)

theorem advancePaper_same (o : Order) (steps : Int) (e : Engine) : Same orderParts e (e.advancePaper o steps) :=
  .ite (.ite (paperDone_same o e) (.refl _ e))
    (((toView_same o e).mono (by decide)).trans
      (.ite ((emptyMemory_same _).next (startFeed_same o steps _)) (.refl _ _)))

theorem advanceChange_same (o : Order) (e : Engine) : Same [.queue, .carriage, .lift] e (e.advanceChange o) := by
  unfold Engine.advanceChange
  split
  · exact (toView_same o e).next (.ite (setPhase_same _ _ _) (.refl _ _))
  all_goals exact .refl _ e

theorem travel_same (o : Order) (e : Engine) : Same [.carriage] e (e.travel o) :=
  .ite (carriageTo_same _ _ e) (.refl _ e)

theorem advanceOrder_same (e : Engine) : Same orderParts e e.advanceOrder := by
  have done : ∀ o, Same orderParts e (e.completeOrder o) := fun o => (completeOrder_same o e).mono (by decide)
  have go : ∀ o, Same orderParts e (e.travel o) := fun o => (travel_same o e).mono (by decide)
  unfold Engine.advanceOrder
  split
  · exact .refl _ e
  · split
    · exact .refl _ e
    · split
      · exact advanceFires_same _ e
      · exact advanceFires_same _ e
      · exact .ite (done _) (go _)
      · exact .ite (.ite (done _) (.refl _ e)) (.ite (.ite (startFeed_same _ _ e) (.refl _ e)) (go _))
      · exact .ite (.ite (done _) (.refl _ e)) (.ite (startFeed_same _ _ e) (.refl _ e))
      · exact (advanceChange_same _ e).mono (by decide)
      · exact advancePaper_same _ _ e
      · exact advancePaper_same _ _ e

theorem withStart_same (q : List Order) (t : Timer) (e : Engine) : Same [.queue] e ({ e with seq := { e.seq with queue := q, viewTimer := t } }) := by
  intro p h
  cases p <;> first
    | exact absurd (by decide) h
    | (simp only [Piece.same] <;> (and_intros <;> first | rfl | exact True.intro))

theorem startHead_same (e : Engine) : Same orderParts e e.startHead := by
  unfold Engine.startHead
  split
  · exact .refl _ e
  · split
    · exact (withStart_same _ _ e).next (advanceOrder_same _)
    · exact .refl _ e

theorem stopOrderCarriage_same (e : Engine) : Same [.carriage, .openValues] e e.stopOrderCarriage :=
  .ite (.refl _ e) (.ite ((readCounter_same e).next (withCarriage_same _ _)) (.ite (loseCarriage_same e) (.refl _ e)))

theorem stopOrderWheel_same (e : Engine) : Same [.wheel] e e.stopOrderWheel :=
  .ite (withWheel_same _ e) (.refl _ e)

theorem stopOrderLift_same (e : Engine) : Same [.lift] e e.stopOrderLift := .ite (withLift_same _ e) (.refl _ e)

theorem stopWait_same (e : Engine) : Same [.hammer] e e.stopWait := withHammer_same _ e

theorem stopOrder_same (e : Engine) : Same [.carriage, .openValues, .wheel, .platen, .lift, .hammer] e e.stopOrder :=
  (((stopOrderCarriage_same e).mono (by decide)).trans (((stopOrderWheel_same _).mono (by decide)).trans
    ((stopWait_same _).mono (by decide)))).trans (((withPlaten_same _ _).mono (by decide)).trans ((stopOrderLift_same _).mono (by decide)))

/-! ## Power control -/

/-- The parts that switching the channels OFF may change. -/
def offParts : List Piece := [.carriage, .wheel, .platen, .hammer, .recovery]

theorem withOff_same (e : Engine) (c : Carriage) (w : Wheel) (q : Platen) (k : Hammer) :
    Same [.carriage, .wheel, .platen, .hammer, .recovery] e
      { e with seq := { e.seq with recovery := {} }, carriage := c, wheel := w, platen := q, hammer := k } := by
  intro p h
  cases p <;> first
    | exact absurd (by decide) h
    | (simp only [Piece.same] <;> (and_intros <;> first | rfl | exact True.intro))

theorem channelsOff_same (e : Engine) : Same offParts e (e.channelsOff) :=
  withOff_same e _ _ _ _

theorem withEnergised_same (k : Hammer) (l : Lift) (q : Platen) (e : Engine) : Same [.hammer, .lift, .platen] e ({ e with hammer := k, lift := l, platen := q }) := by
  intro p h
  cases p <;> first
    | exact absurd (by decide) h
    | (simp only [Piece.same] <;> (and_intros <;> first | rfl | exact True.intro))

theorem energise_same (e : Engine) :
    Same [.hammer, .lift, .platen, .vTarget, .relocate, .memory, .queue, .line] e e.energise := by
  unfold Engine.energise
  simp only
  split
  · exact (withEnergised_same _ _ _ e).next (knob_same _ _)
  · exact (withEnergised_same _ _ _ e).mono (by decide)

theorem darken_same (e : Engine) : Same [.light, .message, .override] e { e with display := e.display.darken } := by
  intro p h
  cases p <;> first
    | exact absurd (by decide) h
    | (simp only [Piece.same, Display.darken] <;> (and_intros <;> first | rfl | exact True.intro))

theorem light_same (e : Engine) : Same [.light] e { e with display := e.display.light } := by
  intro p h
  unfold Display.light
  split <;> cases p <;> first
    | exact absurd (by decide) h
    | (simp only [Piece.same] <;> (and_intros <;> first | rfl | exact True.intro))

theorem withPower_same (q : Power) (e : Engine) : Same [.power, .standbyTimer] e { e with power := q } := by
  intro p h
  cases p <;> first
    | exact absurd (by decide) h
    | (simp only [Piece.same] <;> (and_intros <;> first | rfl | exact True.intro))

/-- The parts that an entry into STANDBY or SLEEP may change. -/
def entryParts : List Piece :=
  [.carriage, .wheel, .platen, .hammer, .recovery, .openValues, .lift, .power, .standbyTimer, .outgoing, .message, .light, .override, .queue]

theorem enterRest_same (r : Rest) (e : Engine) : Same entryParts e (e.enterRest r) := by
  unfold Engine.enterRest
  simp only
  have k : Same entryParts e (Engine.offer (.power r.state)
      { e.readCounter.channelsOff with power := { e.readCounter.channelsOff.power with
          state := r.state, entering := none, pendingEntry := none } }) :=
    ((readCounter_same e).mono (by decide)).trans (((channelsOff_same _).mono (by decide)).trans
      (((withPower_same _ _).mono (by decide)).trans ((offer_same _ _).mono (by decide))))
  cases r
  · exact k
  · exact k.trans ((darken_same _).mono (by decide))

theorem advanceEntry_same (e : Engine) : Same entryParts e e.advanceEntry := by
  unfold Engine.advanceEntry
  split
  · exact .refl _ e
  · exact ((tryLift_same _ _ e).mono (by decide)).trans (.ite (enterRest_same _ _) (.refl _ _))

theorem withEntry_same (q : Power) (t : Timer) (b : Bool) (e : Engine) : Same [.power, .standbyTimer, .queue] e ({ e with power := q, seq := { e.seq with viewTimer := t, liftToView := b } }) := by
  intro p h
  cases p <;> first
    | exact absurd (by decide) h
    | (simp only [Piece.same] <;> (and_intros <;> first | rfl | exact True.intro))

theorem beginEntry_same (r : Rest) (e : Engine) : Same entryParts e (e.beginEntry r) :=
  ((withEntry_same _ _ _ e).mono (by decide)).trans (advanceEntry_same _)

/-- The parts that the start of a wake may change. -/
def wakeParts : List Piece :=
  [.hammer, .lift, .platen, .vTarget, .relocate, .memory, .queue, .line, .power, .standbyTimer, .light, .carriage, .wheel]

theorem withPowerLight_same (q : Power) (e : Engine) :
    Same [.power, .standbyTimer, .light] e { e with power := q, display := e.display.light } := by
  intro p h
  unfold Display.light
  split <;> cases p <;> first
    | exact absurd (by decide) h
    | (simp only [Piece.same] <;> (and_intros <;> first | rfl | exact True.intro))

theorem startWake_same (e : Engine) : Same wakeParts e e.startWake := by
  unfold Engine.startWake
  split
  · exact .refl _ e
  · simp only
    refine Same.trans ?_ ((homeWheel_same _ _ _).mono (by decide))
    refine Same.trans ?_ ((homeCarriage_same _ _ _).mono (by decide))
    refine Same.trans ?_ ((energise_same _).mono (by decide))
    exact (withPowerLight_same _ e).mono (by decide)

theorem wakeIfResting_same (e : Engine) : Same wakeParts e e.wakeIfResting := .ite (startWake_same e) (.refl _ e)

/-- The parts that the end of a wake, a soft reset or start-up may change. -/
def endParts : List Piece := [.faults, .message, .queue, .outgoing, .power, .standbyTimer, .selfTest]

theorem endWake_same (e : Engine) : Same endParts e e.endWake := by
  unfold Engine.endWake
  split
  · exact .refl _ e
  · split
    · simp only
      refine Same.trans ?_ (Same.foldl _ (fun d (f : FaultKind × Option Nat) => (looseFault_same f.1 f.2 d).mono (by decide)) _ _)
      exact ((withPower_same _ e).mono (by decide)).trans ((offer_same _ _).mono (by decide))
    · exact .refl _ e

theorem editWake_same (f : Wake → Wake) (e : Engine) : Same [.power, .standbyTimer] e (e.editWake f) :=
  withPower_same _ e

theorem editRehoming_same (f : Rehoming → Rehoming) (e : Engine) : Same [.power, .standbyTimer] e (e.editRehoming f) :=
  withPower_same _ e

theorem withLeave_same (st : SeqState) (b : Bool) (e : Engine) : Same [.queue] e ({ e with seq := { e.seq with state := st, liftToView := b } }) := by
  intro p h
  cases p <;> first
    | exact absurd (by decide) h
    | (simp only [Piece.same] <;> (and_intros <;> first | rfl | exact True.intro))

theorem leaveStopped_same (e : Engine) : Same [.queue] e e.leaveStopped := withLeave_same _ _ e

theorem endSoftReset_same (e : Engine) : Same endParts e e.endSoftReset := by
  unfold Engine.endSoftReset
  split
  · exact .refl _ e
  · split
    · simp only
      refine Same.trans ?_ ((leaveStopped_same _).mono (by decide))
      exact ((withPower_same _ e).mono (by decide)).trans (.ite ((offer_same _ _).mono (by decide)) (.refl _ _))
    · exact .refl _ e

theorem endStartUp_same (e : Engine) : Same endParts e e.endStartUp :=
  ((withPower_same _ e).mono (by decide)).trans
    (((offer_same _ _).mono (by decide)).trans ((leaveStopped_same _).mono (by decide)))

theorem advanceStartLift_same (e : Engine) : Same (.lift :: endParts) e e.advanceStartLift :=
  .ite (((tryLift_same _ _ e).mono (by decide)).trans (.ite ((endStartUp_same _).mono (by decide)) (.refl _ _)))
    (.refl _ e)

theorem withPort_same (q : Port) (e : Engine) : Same [.port] e ({ e with port := q }) := by
  intro p h
  cases p <;> first
    | exact absurd (by decide) h
    | (simp only [Piece.same] <;> (and_intros <;> first | rfl | exact True.intro))

theorem withPrintPoint_same (n : Nat) (e : Engine) : Same [.ink] e ({ e with seq := { e.seq with printPoint := n } }) := by
  intro p h
  cases p <;> first
    | exact absurd (by decide) h
    | (simp only [Piece.same] <;> (and_intros <;> first | rfl | exact True.intro))

theorem withRecovery_same (r : Recovery) (e : Engine) : Same [.recovery] e ({ e with seq := { e.seq with recovery := r } }) := by
  intro p h
  cases p <;> first
    | exact absurd (by decide) h
    | (simp only [Piece.same] <;> (and_intros <;> first | rfl | exact True.intro))

/-- The parts that a step of the self-test may change. -/
def testParts : List Piece := [.selfTest, .lift, .carriage, .ink, .wheel, .outgoing, .message, .openValues, .port]

theorem endTest_same (t : SelfTest) (e : Engine) : Same testParts e (e.endTest t) :=
  ((withSelfTest_same _ e).mono (by decide)).trans ((offer_same _ _).mono (by decide))

theorem testWheelFailed_same (o : HomingOutcome) (c r : Option Nat) (e : Engine) :
    Same testParts e (e.testWheelFailed o c r) :=
  ((withWheel_same _ e).mono (by decide)).trans
    (((offer_same _ _).mono (by decide)).trans ((editTest_same _ _).mono (by decide)))

theorem testLift_same (q : LiftTarget) (k : SelfTest → SelfTest) (e : Engine) : Same testParts e (e.testLift q k) :=
  ((tryLift_same _ _ e).mono (by decide)).trans (.ite ((editTest_same k _).mono (by decide)) (.refl _ _))

theorem testStep_same (t : SelfTest) (e : Engine) : Same testParts e (e.testStep t) := by
  unfold Engine.testStep
  split
  · exact testLift_same _ _ e
  · exact .ite (((homeCarriage_same _ _ e).mono (by decide)).trans ((editTest_same _ _).mono (by decide))) (.refl _ e)
  · exact .ite (((carriageTo_same _ _ e).mono (by decide)).trans ((editTest_same _ _).mono (by decide))) (.refl _ e)
  · exact .ite (((withPrintPoint_same _ e).mono (by decide)).trans ((editTest_same _ _).mono (by decide))) (.refl _ e)
  · exact .ite (testWheelFailed_same _ _ _ e)
      (.ite (.refl _ e) (((homeWheel_same _ _ e).mono (by decide)).trans ((editTest_same _ _).mono (by decide))))
  · exact .refl _ e
  · exact ((withFree_same _ e).mono (by decide)).trans ((editTest_same _ _).mono (by decide))
  · exact testLift_same _ _ e
  · exact testLift_same _ _ e
  · exact testLift_same _ _ e
  · exact ((withPort_same _ e).mono (by decide)).trans ((editTest_same _ _).mono (by decide))
  · exact .refl _ e
  · exact endTest_same t e

theorem advanceTest_same (fuel : Nat) (e : Engine) : Same testParts e (advanceTest fuel e) := by
  induction fuel generalizing e with
  | zero => exact .refl _ e
  | succ n ih =>
    unfold advanceTest
    split
    · exact .refl _ e
    · exact .ite (testStep_same _ e) ((testStep_same _ e).trans (ih _))

theorem advanceResumeWheel_same (e : Engine) : Same [.wheel] e e.advanceResumeWheel := by
  unfold Engine.advanceResumeWheel
  split
  · exact .ite (homeWheel_same _ _ e) (.refl _ e)
  · exact .refl _ e

theorem liftRecovered_same (e : Engine) : Same [.recovery] e e.liftRecovered := withRecovery_same _ e

theorem carriageRecovered_same (e : Engine) : Same [.recovery] e e.carriageRecovered := withRecovery_same _ e

theorem advanceRecovery_same (e : Engine) : Same [.wheel, .carriage, .lift, .recovery] e e.advanceRecovery := by
  have k : ∀ d : Engine, Same [.wheel, .carriage, .lift, .recovery] d
      (if d.seq.recovery.carriage && d.carriage.state = .lost && d.mayTravel then d.homeCarriage .resume .stay else d) :=
    fun d => .ite ((homeCarriage_same _ _ d).mono (by decide)) (.refl _ d)
  refine ((advanceResumeWheel_same e).mono (by decide)).trans ((k _).trans ?_)
  exact .ite (((tryLift_same _ _ _).mono (by decide)).trans (.ite ((liftRecovered_same _).mono (by decide)) (.refl _ _)))
    (.refl _ _)

theorem advanceRehoming_same (e : Engine) : Same [.carriage, .wheel] e e.advanceRehoming := by
  unfold Engine.advanceRehoming
  split
  · exact .refl _ e
  · rename_i r _
    have k : Same [.carriage, .wheel] e
        (if r.carriage = .running ∧ e.carriage.state = .lost ∧ e.mayTravel = true then
          e.homeCarriage .softReset .leftMargin else e) :=
      .ite ((homeCarriage_same _ _ e).mono (by decide)) (.refl _ e)
    exact k.trans (.ite ((homeWheel_same _ _ _).mono (by decide)) (.refl _ _))

/-- A change that leaves power control alone leaves the way to DEEP_OFF alone. -/
theorem Same.deepOff {xs : List Piece} {e f : Engine} (h : Same xs e f) (hp : Piece.power ∉ xs := by decide) :
    f.power.deepOff = e.power.deepOff := by
  have k : { f.power with timer := none, conditions := false } = { e.power with timer := none, conditions := false } :=
    h .power hp
  have d := congrArg Power.deepOff k
  exact d

theorem advanceEntry_deepOff (e : Engine) : e.advanceEntry.power.deepOff = e.power.deepOff := by
  unfold Engine.advanceEntry
  split
  · rfl
  · rename_i r _
    simp only
    split
    · have k := (offer_same (.power r.state) { (e.tryLift .view .entry).readCounter.channelsOff with
          power := { (e.tryLift .view .entry).readCounter.channelsOff.power with
            state := r.state, entering := none, pendingEntry := none } }).deepOff
      have k' := k.trans ((channelsOff_same _).deepOff.trans
        ((readCounter_same _).deepOff.trans (tryLift_same .view .entry e).deepOff))
      cases r <;> exact k'
    · exact (tryLift_same _ _ e).deepOff

theorem endStartUp_deepOff (e : Engine) : e.endStartUp.power.deepOff = e.power.deepOff :=
  (leaveStopped_same _).deepOff.trans (offer_same _ _).deepOff

theorem advanceStartLift_deepOff (e : Engine) : e.advanceStartLift.power.deepOff = e.power.deepOff := by
  unfold Engine.advanceStartLift
  split
  · simp only
    split
    · exact (endStartUp_deepOff _).trans (tryLift_same _ _ e).deepOff
    · exact (tryLift_same _ _ e).deepOff
  · rfl

/-- On the way to DEEP_OFF everything is lost; otherwise these parts change at most. -/
theorem proceed_same (e : Engine) (h : e.power.deepOff = none) : Same mechanismParts e e.proceed := by
  have first : Same (orderParts ++ testParts ++ [.recovery]) e
      (((advanceTest 24 e.viewLift.advanceOrder).advanceRecovery).advanceRehoming) :=
    ((((viewLift_same e).mono (by decide)).trans ((advanceOrder_same _).mono (by decide))).trans ((advanceTest_same _ _).mono (by decide))).trans
      (((advanceRecovery_same _).mono (by decide)).trans ((advanceRehoming_same _).mono (by decide)))
  have off := ((advanceStartLift_deepOff _).trans (advanceEntry_deepOff _)).trans (first.deepOff.trans h)
  have later := (first.mono (by decide : _ ⊆ mechanismParts)).trans
    (((advanceEntry_same _).mono (by decide)).trans ((advanceStartLift_same _).mono (by decide)))
  unfold Engine.proceed
  simp only
  unfold Engine.advanceDeepOff
  rw [if_neg (by rw [off]; decide)]
  exact later

/-! ## A change of a sensor's level -/

/-- What a change of level does is what it does with its SENSOR notice ahead of the event's other notices, among them
or behind them, with one more open value drawn where the order shows (R99, R191). -/
theorem senses_cases (name : Sensor) (f : Levels → Levels) (k : Engine → Engine) (e : Engine) :
    let e' : Engine := { e with levels := f e.levels }
    let n : Notice := .sensor (some name) e'.levels
    e.senses name f k = e'.sensorEarly n k ∨
    (∃ c, e.senses name f k = { e'.sensorEarly n k with free := c }) ∨
    (∃ c p, e.senses name f k = { e'.sensorAmong p n k with free := c } ∧
      (e'.sensorRest k).power.state ≠ .deepOff) ∨
    (∃ c, e.senses name f k = { e'.sensorLate n k with free := c }) := by
  simp only [Engine.senses]
  split
  · exact .inl rfl
  · split
    · exact .inr (.inl ⟨_, rfl⟩)
    · split
      · rename_i h
        simp [Engine.sensorPlaces] at h
        exact .inr (.inr (.inl ⟨_, _, rfl, h.2⟩))
      · exact .inr (.inr (.inr ⟨_, rfl⟩))

/-- An event that changes no level only settles (R99). -/
theorem sensorEvent_held (name : Sensor) {f : Levels → Levels} (k : Engine → Engine) {e : Engine}
    (h : f e.levels = e.levels) : e.sensorEvent name f k = (e.pinLevels f).after :=
  if_pos (.inr h)

end Sys2Proof.Machine
end

