-- ==== Sys2Proof/Laws/Link.lean ====
section
/-! SUPPORT. What the outgoing line's operations do: the pump, the notice queue, and that both keep the capacities of
the reply list and the notice queue (R189 to R191). -/

set_option Elab.async false

namespace Sys2Proof.Machine

/-- With a frame on the line the pump does nothing. -/
theorem Link.pump_busy {l : Link} (h : l.tx ≠ none) : l.pump = l := by
  unfold Link.pump
  split
  · rfl
  · exact absurd ‹_› h

/-- What the pump can do: nothing, start the oldest reply, or start the oldest notice behind an empty reply list. -/
theorem Link.pump_cases (l : Link) :
    (l.pump = l ∧ (l.tx = none → l.replies = [] ∧ l.notices = [])) ∨
    (∃ r rest, l.tx = none ∧ l.replies = r :: rest ∧ l.pump = { l with tx := some r, replies := rest }) ∨
    (∃ n rest, l.tx = none ∧ l.replies = [] ∧ l.notices = n :: rest ∧
      l.pump = { l with tx := some { frame := n.frame }, notices := rest }) := by
  unfold Link.pump
  split
  · exact .inl ⟨rfl, fun h => by simp_all⟩
  · split
    · exact .inr (.inl ⟨_, _, ‹_›, ‹_›, rfl⟩)
    · exact .inr (.inr ⟨_, _, ‹_›, ‹_›, ‹_›, rfl⟩)
    · exact .inl ⟨rfl, fun _ => ⟨‹_›, ‹_›⟩⟩

/-- After the pump an idle line has nothing waiting. -/
theorem Link.pump_idle (l : Link) : l.pump.tx = none → l.pump.replies = [] ∧ l.pump.notices = [] := by
  rcases l.pump_cases with ⟨h, k⟩ | ⟨r, rest, -, -, h⟩ | ⟨n, rest, -, -, -, h⟩ <;> rw [h]
  · exact k
  · simp
  · simp

/-- The capacity of the notice queue (R191). -/
abbrev noticesOk (q : List Notice) : Prop :=
  q.length ≤ 15 ∨ (q.length = 16 ∧ ∃ k ≤ 255, q.getLast? = some (.overflow k))

/-- A notice offered to a queue within its capacity leaves it there, if no OVERFLOW is offered (R191). -/
theorem takeNotice_ok {n : Notice} {q : List Notice} (h : noticesOk q) : noticesOk (takeNotice n q) := by
  unfold takeNotice
  split
  · rename_i k hk
    have hq : q ≠ [] := by rintro rfl; simp at hk
    have hl : q.dropLast.length + 1 = q.length := by
      have := List.length_dropLast (xs := q)
      have := List.length_pos_iff.2 hq
      omega
    rcases h with h | ⟨h, -⟩
    · exact .inl (by simp; omega)
    · exact .inr ⟨by simp; omega, min 255 (k + 1), by omega, by simp⟩
  · rename_i hk
    split
    · exact .inl (by simp; omega)
    · rcases h with h | ⟨h, k, -, hl⟩
      · exact .inr ⟨by simp; omega, 1, by omega, by simp⟩
      · exact absurd hl (hk k)

/-- Starting the oldest frame keeps the notice queue within its capacity. -/
theorem noticesOk_tail {n : Notice} {q : List Notice} (h : noticesOk (n :: q)) : noticesOk q := by
  rcases h with h | ⟨h, -⟩
  · exact .inl (by simp at h; omega)
  · exact .inl (by simp at h; omega)

/-- The pump keeps the capacities. -/
theorem Link.pump_ok {l : Link} (hr : l.replies.length ≤ 8) (hn : noticesOk l.notices) :
    l.pump.replies.length ≤ 8 ∧ noticesOk l.pump.notices := by
  rcases l.pump_cases with ⟨h, -⟩ | ⟨r, rest, -, hl, h⟩ | ⟨n, rest, -, hl, hq, h⟩ <;> rw [h]
  · exact ⟨hr, hn⟩
  · rw [hl] at hr
    exact ⟨by simp at hr ⊢; omega, hn⟩
  · rw [hq] at hn
    exact ⟨hr, noticesOk_tail hn⟩

/-- An offered notice keeps the link's invariant (R191). -/
theorem Link.noticed_ok {l : Link} (n : Notice) (h : LinkOk l) : LinkOk (l.noticed n) :=
  have k := Link.pump_ok (l := { l with notices := takeNotice n l.notices }) h.1 (takeNotice_ok h.2.1)
  ⟨k.1, k.2, Link.pump_idle _⟩

/-! ## Several notices of one event (R191) -/

/-- A taken notice stands in the queue, or OVERFLOW does. -/
theorem takeNotice_taken (n : Notice) (q : List Notice) :
    n ∈ takeNotice n q ∨ ∃ m ∈ takeNotice n q, m.isOverflow = true := by
  unfold takeNotice
  split
  · exact .inr ⟨_, List.mem_append_right _ (List.mem_singleton_self _), rfl⟩
  · split
    · exact .inl (by simp)
    · exact .inr ⟨.overflow 1, by simp, rfl⟩

/-- Taking a notice keeps those before it, but for the count of an OVERFLOW. -/
theorem takeNotice_keeps {m : Notice} (n : Notice) {q : List Notice} (h : m ∈ q) :
    m ∈ takeNotice n q ∨ ∃ x ∈ takeNotice n q, x.isOverflow = true := by
  unfold takeNotice
  split
  · exact .inr ⟨_, List.mem_append_right _ (List.mem_singleton_self _), rfl⟩
  · split <;> exact .inl (by simp [h])

/-- An OVERFLOW in the queue stays there, with its count or a later one. -/
theorem takeNotice_overflow (n : Notice) {q : List Notice} (h : ∃ x ∈ q, x.isOverflow = true) :
    ∃ x ∈ takeNotice n q, x.isOverflow = true := by
  obtain ⟨x, hx, ho⟩ := h
  rcases takeNotice_keeps n hx with k | k
  · exact ⟨x, k, ho⟩
  · exact k

/-- With a frame on the line the notices of one event only join the queue. -/
theorem Link.takes_busy (ns : List Notice) {l : Link} (h : l.tx ≠ none) :
    l.takes ns = { l with notices := ns.foldl (fun q n => takeNotice n q) l.notices } := by
  induction ns generalizing l with
  | nil => rfl
  | cons n ns ih =>
    have k : Link.pump { l with notices := takeNotice n l.notices } = { l with notices := takeNotice n l.notices } :=
      Link.pump_busy h
    show Link.takes ns (Link.pump { l with notices := takeNotice n l.notices }) = _
    rw [k]
    exact ih (l := { l with notices := takeNotice n l.notices }) h

/-- A notice that stands in the queue is still there after others have been taken, or OVERFLOW is. -/
theorem foldl_takeNotice_keeps {m : Notice} (ns : List Notice) {q : List Notice}
    (h : m ∈ q ∨ ∃ x ∈ q, x.isOverflow = true) :
    m ∈ ns.foldl (fun q n => takeNotice n q) q ∨ ∃ x ∈ ns.foldl (fun q n => takeNotice n q) q, x.isOverflow = true := by
  induction ns generalizing q with
  | nil => exact h
  | cons n ns ih => exact ih (h.elim (takeNotice_keeps n) fun k => .inr (takeNotice_overflow n k))

/-- Each of the notices of one event stands in the queue behind a busy line, or OVERFLOW does. -/
theorem Link.takes_mem {n : Notice} {ns : List Notice} {l : Link} (h : l.tx ≠ none) (hn : n ∈ ns) :
    n ∈ (l.takes ns).notices ∨ ∃ x ∈ (l.takes ns).notices, x.isOverflow = true := by
  rw [Link.takes_busy ns h]
  obtain ⟨a, b, rfl⟩ := List.append_of_mem hn
  simp only [List.foldl_append, List.foldl_cons]
  exact foldl_takeNotice_keeps b (takeNotice_taken n _)

end Sys2Proof.Machine
end

