-- ==== Sys2Proof/Laws/PerInstr.lean ====
section
/-! SUPPORT. Statements about every command as syntax, one lemma per constructor. -/

set_option Elab.async false

namespace Sys2Proof.Laws.F

open Sys2Proof Sys2Proof.Machine

/-- A well-formed request is spelled by one frame of at most 64 payload bytes whose type lies below 40h, unless it is the
frame of an unknown type (R187, R192). -/
def Statement (i : Instr) : Prop :=
  i.wellFormed = true → ∀ f, requestFrame i = some f →
    f.payload.length ≤ 64 ∧ (f.typ.toNat < 0x40 ∨ i = .unknownFrame f.typ)

/-- A request whose frame is in sight. -/
theorem spelled {i : Instr} {g : Frame} (h : requestFrame i = some g) (hl : Nat.ble g.payload.length 64 = true)
    (ht : Nat.ble (g.typ.toNat + 1) 0x40 = true) : Statement i := fun _ f hf => by
  rw [h] at hf
  cases hf
  exact ⟨Nat.le_of_ble_eq_true hl, .inl (Nat.le_of_ble_eq_true ht)⟩

/-- A command that is no request. -/
theorem silent {i : Instr} (h : requestFrame i = none) : Statement i := fun _ f hf => by simp [h] at hf

theorem hardReset : Statement .hardReset := silent rfl

theorem receiveByte (b : Byte) : Statement (.receiveByte b) := silent rfl

theorem byteError : Statement .byteError := silent rfl

theorem huntIdleTimeout : Statement .huntIdleTimeout := silent rfl

theorem gapTimerExpiry : Statement .gapTimerExpiry := silent rfl

theorem unknownFrame (typ : Byte) : Statement (.unknownFrame typ) := by
  intro _ f hf
  cases hf
  exact ⟨by simp, .inr rfl⟩

theorem transmitFrameEnd : Statement .transmitFrameEnd := silent rfl

theorem key (entries : List KeyBytes) : Statement (.key entries) := by
  intro h f hf
  cases hf
  have : entries.length ≤ 16 := by simp [Instr.wellFormed] at h; omega
  exact ⟨by simp; omega, .inl (by simp)⟩

theorem setMode (value : Byte) : Statement (.setMode value) := spelled rfl rfl rfl

theorem setPitch (value : Byte) : Statement (.setPitch value) := spelled rfl rfl rfl

theorem setLeftMargin (position : Half) : Statement (.setLeftMargin position) := spelled rfl rfl rfl

theorem setRightMargin (position : Half) : Statement (.setRightMargin position) := spelled rfl rfl rfl

theorem tabSet (position : Half) : Statement (.tabSet position) := spelled rfl rfl rfl

theorem tabClear (position : Half) : Statement (.tabClear position) := spelled rfl rfl rfl

theorem tabClearAll : Statement .tabClearAll := spelled rfl rfl rfl

theorem setAlign (value : Byte) : Statement (.setAlign value) := spelled rfl rfl rfl

theorem setDistribute (value : Byte) : Statement (.setDistribute value) := spelled rfl rfl rfl

theorem setImpression (value : Byte) : Statement (.setImpression value) := spelled rfl rfl rfl

theorem setEnergy (cls : Byte) (setting : Byte) (onTime : Half) : Statement (.setEnergy cls setting onTime) := spelled rfl rfl rfl

theorem setSpacing (halfLines : Byte) : Statement (.setSpacing halfLines) := spelled rfl rfl rfl

theorem setBellZone (steps : Half) : Statement (.setBellZone steps) := spelled rfl rfl rfl

theorem setSpell (value : Byte) : Statement (.setSpell value) := spelled rfl rfl rfl

theorem setBidi (value : Byte) : Statement (.setBidi value) := spelled rfl rfl rfl

theorem setStandbyTimer (units : Half) : Statement (.setStandbyTimer units) := spelled rfl rfl rfl

theorem setContrast (level : Byte) : Statement (.setContrast level) := spelled rfl rfl rfl

theorem wheelTablePiece0 (slot : Byte) (wheel : Byte) (cls : Byte) (space : Byte) (underline : Byte) : Statement (.wheelTablePiece0 slot wheel cls space underline) := spelled rfl rfl rfl

theorem wheelTablePiece (slot : Byte) (piece : Byte) (entries : List GlyphBytes) : Statement (.wheelTablePiece slot piece entries) := by
  intro h f hf
  cases hf
  have : entries.length = 8 := by simp [Instr.wellFormed] at h; exact h.2
  exact ⟨by simp; omega, .inl (by simp)⟩

theorem wheelChange (expected : Byte) : Statement (.wheelChange expected) := spelled rfl rfl rfl

theorem readLine (piece : Byte) : Statement (.readLine piece) := spelled rfl rfl rfl

theorem release : Statement .release := spelled rfl rfl rfl

theorem accept (word : Byte) : Statement (.accept word) := spelled rfl rfl rfl

theorem addWord (glyphs : List Byte) : Statement (.addWord glyphs) := by
  intro h f hf
  cases hf
  simp [Instr.wellFormed] at h
  exact ⟨by simp; omega, .inl (by simp)⟩

theorem removeWord (glyphs : List Byte) : Statement (.removeWord glyphs) := by
  intro h f hf
  cases hf
  simp [Instr.wellFormed] at h
  exact ⟨by simp; omega, .inl (by simp)⟩

theorem dictionary : Statement .dictionary := spelled rfl rfl rfl

theorem displayText (seconds : Byte) (codes : List Byte) : Statement (.displayText seconds codes) := by
  intro h f hf
  cases hf
  simp [Instr.wellFormed] at h
  exact ⟨by simp; omega, .inl (by simp)⟩

theorem status : Statement .status := spelled rfl rfl rfl

theorem statusClearAccrued : Statement .statusClearAccrued := spelled rfl rfl rfl

theorem identify : Statement .identify := spelled rfl rfl rfl

theorem selfTest : Statement .selfTest := spelled rfl rfl rfl

theorem saveContext : Statement .saveContext := spelled rfl rfl rfl

theorem restoreContext (form : List Byte) : Statement (.restoreContext form) := by
  intro h f hf
  cases hf
  simp [Instr.wellFormed] at h
  exact ⟨by simp; omega, .inl (by simp)⟩

theorem resume : Statement .resume := spelled rfl rfl rfl

theorem flush : Statement .flush := spelled rfl rfl rfl

theorem pause : Statement .pause := spelled rfl rfl rfl

theorem continuing : Statement .continuing := spelled rfl rfl rfl

theorem standby : Statement .standby := spelled rfl rfl rfl

theorem sleep : Statement .sleep := spelled rfl rfl rfl

theorem deepOff : Statement .deepOff := spelled rfl rfl rfl

theorem wake : Statement .wake := spelled rfl rfl rfl

theorem reset : Statement .reset := spelled rfl rfl rfl

theorem paperLoad : Statement .paperLoad := spelled rfl rfl rfl

theorem paperEject : Statement .paperEject := spelled rfl rfl rfl

theorem printableKey : Statement .printableKey := silent rfl

theorem space : Statement .space := silent rfl

theorem returnKey : Statement .returnKey := silent rfl

theorem paragraphReturn : Statement .paragraphReturn := silent rfl

theorem backspace : Statement .backspace := silent rfl

theorem tab : Statement .tab := silent rfl

theorem marginRelease : Statement .marginRelease := silent rfl

theorem index : Statement .index := silent rfl

theorem reverseIndex : Statement .reverseIndex := silent rfl

theorem halfUp : Statement .halfUp := silent rfl

theorem halfDown : Statement .halfDown := silent rfl

theorem correct : Statement .correct := silent rfl

theorem correctWord : Statement .correctWord := silent rfl

theorem correctLine : Statement .correctLine := silent rfl

theorem relocate : Statement .relocate := silent rfl

theorem orderStart : Statement .orderStart := silent rfl

theorem carriageMoveEnd : Statement .carriageMoveEnd := silent rfl

theorem carriageEncoderEdge : Statement .carriageEncoderEdge := silent rfl

theorem carriageMotionTimerExpiry : Statement .carriageMotionTimerExpiry := silent rfl

theorem homeFlagChange (active : Bool) : Statement (.homeFlagChange active) := silent rfl

theorem homeStepLimit : Statement .homeStepLimit := silent rfl

theorem wheelSettled : Statement .wheelSettled := silent rfl

theorem wheelRotationTimerExpiry : Statement .wheelRotationTimerExpiry := silent rfl

theorem indexMark (width : Nat) : Statement (.indexMark width) := silent rfl

theorem wheelSearchLimit : Statement .wheelSearchLimit := silent rfl

theorem codeMark (width : Nat) : Statement (.codeMark width) := silent rfl

theorem recoveryHomingStart : Statement .recoveryHomingStart := silent rfl

theorem platenEncoderEdge (forward : Bool) : Statement (.platenEncoderEdge forward) := silent rfl

theorem platenMotionTimerExpiry : Statement .platenMotionTimerExpiry := silent rfl

theorem liftSwitchChange (lsw1Closed : Bool) (lsw0Closed : Bool) : Statement (.liftSwitchChange lsw1Closed lsw0Closed) := silent rfl

theorem liftTimerExpiry : Statement .liftTimerExpiry := silent rfl

theorem onTimeEnd : Statement .onTimeEnd := silent rfl

theorem restEnd : Statement .restEnd := silent rfl

theorem hammerHome : Statement .hammerHome := silent rfl

theorem stuckTimerExpiry : Statement .stuckTimerExpiry := silent rfl

theorem sensorChange (sensor : PlainSensor) (level : Bool) : Statement (.sensorChange sensor level) := silent rfl

theorem coverOpenEvent : Statement .coverOpenEvent := silent rfl

theorem coverClosedEvent : Statement .coverClosedEvent := silent rfl

theorem releaseLeverChange (engaged : Bool) : Statement (.releaseLeverChange engaged) := silent rfl

theorem flashReadEnd (bytes : List Byte) (sizeCode : Half) : Statement (.flashReadEnd bytes sizeCode) := silent rfl

theorem flashReadTimeout : Statement .flashReadTimeout := silent rfl

theorem viewTimerExpiry : Statement .viewTimerExpiry := silent rfl

theorem standbyTimerExpiry : Statement .standbyTimerExpiry := silent rfl

theorem pendingEntryStart : Statement .pendingEntryStart := silent rfl

theorem blinkTimerExpiry : Statement .blinkTimerExpiry := silent rfl

theorem holdTimerExpiry : Statement .holdTimerExpiry := silent rfl

theorem overrideTimerExpiry : Statement .overrideTimerExpiry := silent rfl

end Sys2Proof.Laws.F
end

