-- ==== Sys2Proof/Laws/State.lean ====
section
/-! SUPPORT. The small lemmas of State: one per field per named update, so that no proof unfolds a record update. -/

set_option Elab.async false

namespace Sys2Proof.Machine

@[simp] theorem State.on_toEngine (f : Engine → Engine) (s : State) : (s.on f).toEngine = f s.toEngine := rfl
@[simp] theorem State.on_pending (f : Engine → Engine) (s : State) : (s.on f).pending = s.pending := rfl

/-! ## `Engine.withSet` -/

@[simp] theorem Engine.withSet_link (f : Settings → Settings) (e : Engine) : (e.withSet f).link = e.link := rfl
@[simp] theorem Engine.withSet_comp (f : Settings → Settings) (e : Engine) : (e.withSet f).comp = e.comp := rfl
@[simp] theorem Engine.withSet_set (f : Settings → Settings) (e : Engine) : (e.withSet f).set = f e.set := rfl
@[simp] theorem Engine.withSet_esc (f : Settings → Settings) (e : Engine) : (e.withSet f).esc = e.esc := rfl
@[simp] theorem Engine.withSet_slots (f : Settings → Settings) (e : Engine) : (e.withSet f).slots = e.slots := rfl
@[simp] theorem Engine.withSet_seq (f : Settings → Settings) (e : Engine) : (e.withSet f).seq = e.seq := rfl
@[simp] theorem Engine.withSet_carriage (f : Settings → Settings) (e : Engine) : (e.withSet f).carriage = e.carriage := rfl
@[simp] theorem Engine.withSet_wheel (f : Settings → Settings) (e : Engine) : (e.withSet f).wheel = e.wheel := rfl
@[simp] theorem Engine.withSet_platen (f : Settings → Settings) (e : Engine) : (e.withSet f).platen = e.platen := rfl
@[simp] theorem Engine.withSet_lift (f : Settings → Settings) (e : Engine) : (e.withSet f).lift = e.lift := rfl
@[simp] theorem Engine.withSet_hammer (f : Settings → Settings) (e : Engine) : (e.withSet f).hammer = e.hammer := rfl
@[simp] theorem Engine.withSet_levels (f : Settings → Settings) (e : Engine) : (e.withSet f).levels = e.levels := rfl
@[simp] theorem Engine.withSet_pins (f : Settings → Settings) (e : Engine) : (e.withSet f).pins = e.pins := rfl
@[simp] theorem Engine.withSet_memory (f : Settings → Settings) (e : Engine) : (e.withSet f).memory = e.memory := rfl
@[simp] theorem Engine.withSet_spell (f : Settings → Settings) (e : Engine) : (e.withSet f).spell = e.spell := rfl
@[simp] theorem Engine.withSet_port (f : Settings → Settings) (e : Engine) : (e.withSet f).port = e.port := rfl
@[simp] theorem Engine.withSet_display (f : Settings → Settings) (e : Engine) : (e.withSet f).display = e.display := rfl
@[simp] theorem Engine.withSet_faults (f : Settings → Settings) (e : Engine) : (e.withSet f).faults = e.faults := rfl
@[simp] theorem Engine.withSet_selfTest (f : Settings → Settings) (e : Engine) : (e.withSet f).selfTest = e.selfTest := rfl
@[simp] theorem Engine.withSet_power (f : Settings → Settings) (e : Engine) : (e.withSet f).power = e.power := rfl
@[simp] theorem Engine.withSet_free (f : Settings → Settings) (e : Engine) : (e.withSet f).free = e.free := rfl

/-! ## `Engine.editWake` -/

@[simp] theorem Engine.editWake_link (f : Wake → Wake) (e : Engine) : (e.editWake f).link = e.link := rfl
@[simp] theorem Engine.editWake_comp (f : Wake → Wake) (e : Engine) : (e.editWake f).comp = e.comp := rfl
@[simp] theorem Engine.editWake_set (f : Wake → Wake) (e : Engine) : (e.editWake f).set = e.set := rfl
@[simp] theorem Engine.editWake_esc (f : Wake → Wake) (e : Engine) : (e.editWake f).esc = e.esc := rfl
@[simp] theorem Engine.editWake_slots (f : Wake → Wake) (e : Engine) : (e.editWake f).slots = e.slots := rfl
@[simp] theorem Engine.editWake_seq (f : Wake → Wake) (e : Engine) : (e.editWake f).seq = e.seq := rfl
@[simp] theorem Engine.editWake_carriage (f : Wake → Wake) (e : Engine) : (e.editWake f).carriage = e.carriage := rfl
@[simp] theorem Engine.editWake_wheel (f : Wake → Wake) (e : Engine) : (e.editWake f).wheel = e.wheel := rfl
@[simp] theorem Engine.editWake_platen (f : Wake → Wake) (e : Engine) : (e.editWake f).platen = e.platen := rfl
@[simp] theorem Engine.editWake_lift (f : Wake → Wake) (e : Engine) : (e.editWake f).lift = e.lift := rfl
@[simp] theorem Engine.editWake_hammer (f : Wake → Wake) (e : Engine) : (e.editWake f).hammer = e.hammer := rfl
@[simp] theorem Engine.editWake_levels (f : Wake → Wake) (e : Engine) : (e.editWake f).levels = e.levels := rfl
@[simp] theorem Engine.editWake_pins (f : Wake → Wake) (e : Engine) : (e.editWake f).pins = e.pins := rfl
@[simp] theorem Engine.editWake_memory (f : Wake → Wake) (e : Engine) : (e.editWake f).memory = e.memory := rfl
@[simp] theorem Engine.editWake_spell (f : Wake → Wake) (e : Engine) : (e.editWake f).spell = e.spell := rfl
@[simp] theorem Engine.editWake_port (f : Wake → Wake) (e : Engine) : (e.editWake f).port = e.port := rfl
@[simp] theorem Engine.editWake_display (f : Wake → Wake) (e : Engine) : (e.editWake f).display = e.display := rfl
@[simp] theorem Engine.editWake_faults (f : Wake → Wake) (e : Engine) : (e.editWake f).faults = e.faults := rfl
@[simp] theorem Engine.editWake_selfTest (f : Wake → Wake) (e : Engine) : (e.editWake f).selfTest = e.selfTest := rfl
@[simp] theorem Engine.editWake_power (f : Wake → Wake) (e : Engine) : (e.editWake f).power = { e.power with wake := e.power.wake.map f } := rfl
@[simp] theorem Engine.editWake_free (f : Wake → Wake) (e : Engine) : (e.editWake f).free = e.free := rfl

/-! ## `Engine.editTest` -/

@[simp] theorem Engine.editTest_link (f : SelfTest → SelfTest) (e : Engine) : (e.editTest f).link = e.link := rfl
@[simp] theorem Engine.editTest_comp (f : SelfTest → SelfTest) (e : Engine) : (e.editTest f).comp = e.comp := rfl
@[simp] theorem Engine.editTest_set (f : SelfTest → SelfTest) (e : Engine) : (e.editTest f).set = e.set := rfl
@[simp] theorem Engine.editTest_esc (f : SelfTest → SelfTest) (e : Engine) : (e.editTest f).esc = e.esc := rfl
@[simp] theorem Engine.editTest_slots (f : SelfTest → SelfTest) (e : Engine) : (e.editTest f).slots = e.slots := rfl
@[simp] theorem Engine.editTest_seq (f : SelfTest → SelfTest) (e : Engine) : (e.editTest f).seq = e.seq := rfl
@[simp] theorem Engine.editTest_carriage (f : SelfTest → SelfTest) (e : Engine) : (e.editTest f).carriage = e.carriage := rfl
@[simp] theorem Engine.editTest_wheel (f : SelfTest → SelfTest) (e : Engine) : (e.editTest f).wheel = e.wheel := rfl
@[simp] theorem Engine.editTest_platen (f : SelfTest → SelfTest) (e : Engine) : (e.editTest f).platen = e.platen := rfl
@[simp] theorem Engine.editTest_lift (f : SelfTest → SelfTest) (e : Engine) : (e.editTest f).lift = e.lift := rfl
@[simp] theorem Engine.editTest_hammer (f : SelfTest → SelfTest) (e : Engine) : (e.editTest f).hammer = e.hammer := rfl
@[simp] theorem Engine.editTest_levels (f : SelfTest → SelfTest) (e : Engine) : (e.editTest f).levels = e.levels := rfl
@[simp] theorem Engine.editTest_pins (f : SelfTest → SelfTest) (e : Engine) : (e.editTest f).pins = e.pins := rfl
@[simp] theorem Engine.editTest_memory (f : SelfTest → SelfTest) (e : Engine) : (e.editTest f).memory = e.memory := rfl
@[simp] theorem Engine.editTest_spell (f : SelfTest → SelfTest) (e : Engine) : (e.editTest f).spell = e.spell := rfl
@[simp] theorem Engine.editTest_port (f : SelfTest → SelfTest) (e : Engine) : (e.editTest f).port = e.port := rfl
@[simp] theorem Engine.editTest_display (f : SelfTest → SelfTest) (e : Engine) : (e.editTest f).display = e.display := rfl
@[simp] theorem Engine.editTest_faults (f : SelfTest → SelfTest) (e : Engine) : (e.editTest f).faults = e.faults := rfl
@[simp] theorem Engine.editTest_selfTest (f : SelfTest → SelfTest) (e : Engine) : (e.editTest f).selfTest = e.selfTest.map f := rfl
@[simp] theorem Engine.editTest_power (f : SelfTest → SelfTest) (e : Engine) : (e.editTest f).power = e.power := rfl
@[simp] theorem Engine.editTest_free (f : SelfTest → SelfTest) (e : Engine) : (e.editTest f).free = e.free := rfl

/-! ## `Engine.pinLevels` -/

@[simp] theorem Engine.pinLevels_link (f : Levels → Levels) (e : Engine) : (e.pinLevels f).link = e.link := rfl
@[simp] theorem Engine.pinLevels_comp (f : Levels → Levels) (e : Engine) : (e.pinLevels f).comp = e.comp := rfl
@[simp] theorem Engine.pinLevels_set (f : Levels → Levels) (e : Engine) : (e.pinLevels f).set = e.set := rfl
@[simp] theorem Engine.pinLevels_esc (f : Levels → Levels) (e : Engine) : (e.pinLevels f).esc = e.esc := rfl
@[simp] theorem Engine.pinLevels_slots (f : Levels → Levels) (e : Engine) : (e.pinLevels f).slots = e.slots := rfl
@[simp] theorem Engine.pinLevels_seq (f : Levels → Levels) (e : Engine) : (e.pinLevels f).seq = e.seq := rfl
@[simp] theorem Engine.pinLevels_carriage (f : Levels → Levels) (e : Engine) : (e.pinLevels f).carriage = e.carriage := rfl
@[simp] theorem Engine.pinLevels_wheel (f : Levels → Levels) (e : Engine) : (e.pinLevels f).wheel = e.wheel := rfl
@[simp] theorem Engine.pinLevels_platen (f : Levels → Levels) (e : Engine) : (e.pinLevels f).platen = e.platen := rfl
@[simp] theorem Engine.pinLevels_lift (f : Levels → Levels) (e : Engine) : (e.pinLevels f).lift = e.lift := rfl
@[simp] theorem Engine.pinLevels_hammer (f : Levels → Levels) (e : Engine) : (e.pinLevels f).hammer = e.hammer := rfl
@[simp] theorem Engine.pinLevels_levels (f : Levels → Levels) (e : Engine) : (e.pinLevels f).levels = e.levels := rfl
@[simp] theorem Engine.pinLevels_pins (f : Levels → Levels) (e : Engine) : (e.pinLevels f).pins = { e.pins with sensors := f e.pins.sensors } := rfl
@[simp] theorem Engine.pinLevels_memory (f : Levels → Levels) (e : Engine) : (e.pinLevels f).memory = e.memory := rfl
@[simp] theorem Engine.pinLevels_spell (f : Levels → Levels) (e : Engine) : (e.pinLevels f).spell = e.spell := rfl
@[simp] theorem Engine.pinLevels_port (f : Levels → Levels) (e : Engine) : (e.pinLevels f).port = e.port := rfl
@[simp] theorem Engine.pinLevels_display (f : Levels → Levels) (e : Engine) : (e.pinLevels f).display = e.display := rfl
@[simp] theorem Engine.pinLevels_faults (f : Levels → Levels) (e : Engine) : (e.pinLevels f).faults = e.faults := rfl
@[simp] theorem Engine.pinLevels_selfTest (f : Levels → Levels) (e : Engine) : (e.pinLevels f).selfTest = e.selfTest := rfl
@[simp] theorem Engine.pinLevels_power (f : Levels → Levels) (e : Engine) : (e.pinLevels f).power = e.power := rfl
@[simp] theorem Engine.pinLevels_free (f : Levels → Levels) (e : Engine) : (e.pinLevels f).free = e.free := rfl

/-! ## `Engine.homingPhase` -/

@[simp] theorem Engine.homingPhase_link (h : Homing) (p : HomingPhase) (e : Engine) : (e.homingPhase h p).link = e.link := rfl
@[simp] theorem Engine.homingPhase_comp (h : Homing) (p : HomingPhase) (e : Engine) : (e.homingPhase h p).comp = e.comp := rfl
@[simp] theorem Engine.homingPhase_set (h : Homing) (p : HomingPhase) (e : Engine) : (e.homingPhase h p).set = e.set := rfl
@[simp] theorem Engine.homingPhase_esc (h : Homing) (p : HomingPhase) (e : Engine) : (e.homingPhase h p).esc = e.esc := rfl
@[simp] theorem Engine.homingPhase_slots (h : Homing) (p : HomingPhase) (e : Engine) : (e.homingPhase h p).slots = e.slots := rfl
@[simp] theorem Engine.homingPhase_seq (h : Homing) (p : HomingPhase) (e : Engine) : (e.homingPhase h p).seq = e.seq := rfl
@[simp] theorem Engine.homingPhase_carriage (h : Homing) (p : HomingPhase) (e : Engine) : (e.homingPhase h p).carriage = e.carriage := rfl
@[simp] theorem Engine.homingPhase_wheel (h : Homing) (p : HomingPhase) (e : Engine) : (e.homingPhase h p).wheel = { e.wheel with homing := some { h with phase := p } } := rfl
@[simp] theorem Engine.homingPhase_platen (h : Homing) (p : HomingPhase) (e : Engine) : (e.homingPhase h p).platen = e.platen := rfl
@[simp] theorem Engine.homingPhase_lift (h : Homing) (p : HomingPhase) (e : Engine) : (e.homingPhase h p).lift = e.lift := rfl
@[simp] theorem Engine.homingPhase_hammer (h : Homing) (p : HomingPhase) (e : Engine) : (e.homingPhase h p).hammer = e.hammer := rfl
@[simp] theorem Engine.homingPhase_levels (h : Homing) (p : HomingPhase) (e : Engine) : (e.homingPhase h p).levels = e.levels := rfl
@[simp] theorem Engine.homingPhase_pins (h : Homing) (p : HomingPhase) (e : Engine) : (e.homingPhase h p).pins = e.pins := rfl
@[simp] theorem Engine.homingPhase_memory (h : Homing) (p : HomingPhase) (e : Engine) : (e.homingPhase h p).memory = e.memory := rfl
@[simp] theorem Engine.homingPhase_spell (h : Homing) (p : HomingPhase) (e : Engine) : (e.homingPhase h p).spell = e.spell := rfl
@[simp] theorem Engine.homingPhase_port (h : Homing) (p : HomingPhase) (e : Engine) : (e.homingPhase h p).port = e.port := rfl
@[simp] theorem Engine.homingPhase_display (h : Homing) (p : HomingPhase) (e : Engine) : (e.homingPhase h p).display = e.display := rfl
@[simp] theorem Engine.homingPhase_faults (h : Homing) (p : HomingPhase) (e : Engine) : (e.homingPhase h p).faults = e.faults := rfl
@[simp] theorem Engine.homingPhase_selfTest (h : Homing) (p : HomingPhase) (e : Engine) : (e.homingPhase h p).selfTest = e.selfTest := rfl
@[simp] theorem Engine.homingPhase_power (h : Homing) (p : HomingPhase) (e : Engine) : (e.homingPhase h p).power = e.power := rfl
@[simp] theorem Engine.homingPhase_free (h : Homing) (p : HomingPhase) (e : Engine) : (e.homingPhase h p).free = e.free := rfl

/-! ## `Engine.editOrder` -/

@[simp] theorem Engine.editOrder_link (n : Nat) (f : Order → Order) (e : Engine) : (e.editOrder n f).link = e.link := rfl
@[simp] theorem Engine.editOrder_comp (n : Nat) (f : Order → Order) (e : Engine) : (e.editOrder n f).comp = e.comp := rfl
@[simp] theorem Engine.editOrder_set (n : Nat) (f : Order → Order) (e : Engine) : (e.editOrder n f).set = e.set := rfl
@[simp] theorem Engine.editOrder_esc (n : Nat) (f : Order → Order) (e : Engine) : (e.editOrder n f).esc = e.esc := rfl
@[simp] theorem Engine.editOrder_slots (n : Nat) (f : Order → Order) (e : Engine) : (e.editOrder n f).slots = e.slots := rfl
@[simp] theorem Engine.editOrder_seq (n : Nat) (f : Order → Order) (e : Engine) : (e.editOrder n f).seq = { e.seq with queue := e.seq.queue.map fun o => if o.number = n then f o else o } := rfl
@[simp] theorem Engine.editOrder_carriage (n : Nat) (f : Order → Order) (e : Engine) : (e.editOrder n f).carriage = e.carriage := rfl
@[simp] theorem Engine.editOrder_wheel (n : Nat) (f : Order → Order) (e : Engine) : (e.editOrder n f).wheel = e.wheel := rfl
@[simp] theorem Engine.editOrder_platen (n : Nat) (f : Order → Order) (e : Engine) : (e.editOrder n f).platen = e.platen := rfl
@[simp] theorem Engine.editOrder_lift (n : Nat) (f : Order → Order) (e : Engine) : (e.editOrder n f).lift = e.lift := rfl
@[simp] theorem Engine.editOrder_hammer (n : Nat) (f : Order → Order) (e : Engine) : (e.editOrder n f).hammer = e.hammer := rfl
@[simp] theorem Engine.editOrder_levels (n : Nat) (f : Order → Order) (e : Engine) : (e.editOrder n f).levels = e.levels := rfl
@[simp] theorem Engine.editOrder_pins (n : Nat) (f : Order → Order) (e : Engine) : (e.editOrder n f).pins = e.pins := rfl
@[simp] theorem Engine.editOrder_memory (n : Nat) (f : Order → Order) (e : Engine) : (e.editOrder n f).memory = e.memory := rfl
@[simp] theorem Engine.editOrder_spell (n : Nat) (f : Order → Order) (e : Engine) : (e.editOrder n f).spell = e.spell := rfl
@[simp] theorem Engine.editOrder_port (n : Nat) (f : Order → Order) (e : Engine) : (e.editOrder n f).port = e.port := rfl
@[simp] theorem Engine.editOrder_display (n : Nat) (f : Order → Order) (e : Engine) : (e.editOrder n f).display = e.display := rfl
@[simp] theorem Engine.editOrder_faults (n : Nat) (f : Order → Order) (e : Engine) : (e.editOrder n f).faults = e.faults := rfl
@[simp] theorem Engine.editOrder_selfTest (n : Nat) (f : Order → Order) (e : Engine) : (e.editOrder n f).selfTest = e.selfTest := rfl
@[simp] theorem Engine.editOrder_power (n : Nat) (f : Order → Order) (e : Engine) : (e.editOrder n f).power = e.power := rfl
@[simp] theorem Engine.editOrder_free (n : Nat) (f : Order → Order) (e : Engine) : (e.editOrder n f).free = e.free := rfl

/-! ## `Engine.joinReply` -/

@[simp] theorem Engine.joinReply_link (typ : Byte) (payload : List Byte) (closing : Bool) (e : Engine) : (e.joinReply typ payload closing).link = Link.pump { e.link with replies := e.link.replies ++ [⟨⟨typ, payload⟩, closing⟩] } := rfl
@[simp] theorem Engine.joinReply_comp (typ : Byte) (payload : List Byte) (closing : Bool) (e : Engine) : (e.joinReply typ payload closing).comp = e.comp := rfl
@[simp] theorem Engine.joinReply_set (typ : Byte) (payload : List Byte) (closing : Bool) (e : Engine) : (e.joinReply typ payload closing).set = e.set := rfl
@[simp] theorem Engine.joinReply_esc (typ : Byte) (payload : List Byte) (closing : Bool) (e : Engine) : (e.joinReply typ payload closing).esc = e.esc := rfl
@[simp] theorem Engine.joinReply_slots (typ : Byte) (payload : List Byte) (closing : Bool) (e : Engine) : (e.joinReply typ payload closing).slots = e.slots := rfl
@[simp] theorem Engine.joinReply_seq (typ : Byte) (payload : List Byte) (closing : Bool) (e : Engine) : (e.joinReply typ payload closing).seq = e.seq := rfl
@[simp] theorem Engine.joinReply_carriage (typ : Byte) (payload : List Byte) (closing : Bool) (e : Engine) : (e.joinReply typ payload closing).carriage = e.carriage := rfl
@[simp] theorem Engine.joinReply_wheel (typ : Byte) (payload : List Byte) (closing : Bool) (e : Engine) : (e.joinReply typ payload closing).wheel = e.wheel := rfl
@[simp] theorem Engine.joinReply_platen (typ : Byte) (payload : List Byte) (closing : Bool) (e : Engine) : (e.joinReply typ payload closing).platen = e.platen := rfl
@[simp] theorem Engine.joinReply_lift (typ : Byte) (payload : List Byte) (closing : Bool) (e : Engine) : (e.joinReply typ payload closing).lift = e.lift := rfl
@[simp] theorem Engine.joinReply_hammer (typ : Byte) (payload : List Byte) (closing : Bool) (e : Engine) : (e.joinReply typ payload closing).hammer = e.hammer := rfl
@[simp] theorem Engine.joinReply_levels (typ : Byte) (payload : List Byte) (closing : Bool) (e : Engine) : (e.joinReply typ payload closing).levels = e.levels := rfl
@[simp] theorem Engine.joinReply_pins (typ : Byte) (payload : List Byte) (closing : Bool) (e : Engine) : (e.joinReply typ payload closing).pins = e.pins := rfl
@[simp] theorem Engine.joinReply_memory (typ : Byte) (payload : List Byte) (closing : Bool) (e : Engine) : (e.joinReply typ payload closing).memory = e.memory := rfl
@[simp] theorem Engine.joinReply_spell (typ : Byte) (payload : List Byte) (closing : Bool) (e : Engine) : (e.joinReply typ payload closing).spell = e.spell := rfl
@[simp] theorem Engine.joinReply_port (typ : Byte) (payload : List Byte) (closing : Bool) (e : Engine) : (e.joinReply typ payload closing).port = e.port := rfl
@[simp] theorem Engine.joinReply_display (typ : Byte) (payload : List Byte) (closing : Bool) (e : Engine) : (e.joinReply typ payload closing).display = e.display := rfl
@[simp] theorem Engine.joinReply_faults (typ : Byte) (payload : List Byte) (closing : Bool) (e : Engine) : (e.joinReply typ payload closing).faults = e.faults := rfl
@[simp] theorem Engine.joinReply_selfTest (typ : Byte) (payload : List Byte) (closing : Bool) (e : Engine) : (e.joinReply typ payload closing).selfTest = e.selfTest := rfl
@[simp] theorem Engine.joinReply_power (typ : Byte) (payload : List Byte) (closing : Bool) (e : Engine) : (e.joinReply typ payload closing).power = e.power := rfl
@[simp] theorem Engine.joinReply_free (typ : Byte) (payload : List Byte) (closing : Bool) (e : Engine) : (e.joinReply typ payload closing).free = e.free := rfl

/-! ## `Engine.pulse` -/

@[simp] theorem Engine.pulse_link (t : Nat) (e : Engine) : (e.pulse t).link = e.link := rfl
@[simp] theorem Engine.pulse_comp (t : Nat) (e : Engine) : (e.pulse t).comp = e.comp := rfl
@[simp] theorem Engine.pulse_set (t : Nat) (e : Engine) : (e.pulse t).set = e.set := rfl
@[simp] theorem Engine.pulse_esc (t : Nat) (e : Engine) : (e.pulse t).esc = e.esc := rfl
@[simp] theorem Engine.pulse_slots (t : Nat) (e : Engine) : (e.pulse t).slots = e.slots := rfl
@[simp] theorem Engine.pulse_seq (t : Nat) (e : Engine) : (e.pulse t).seq = e.seq := rfl
@[simp] theorem Engine.pulse_carriage (t : Nat) (e : Engine) : (e.pulse t).carriage = e.carriage := rfl
@[simp] theorem Engine.pulse_wheel (t : Nat) (e : Engine) : (e.pulse t).wheel = e.wheel := rfl
@[simp] theorem Engine.pulse_platen (t : Nat) (e : Engine) : (e.pulse t).platen = e.platen := rfl
@[simp] theorem Engine.pulse_lift (t : Nat) (e : Engine) : (e.pulse t).lift = e.lift := rfl
@[simp] theorem Engine.pulse_hammer (t : Nat) (e : Engine) : (e.pulse t).hammer = { state := .on, pulse := some t, waitTimer := none } := rfl
@[simp] theorem Engine.pulse_levels (t : Nat) (e : Engine) : (e.pulse t).levels = e.levels := rfl
@[simp] theorem Engine.pulse_pins (t : Nat) (e : Engine) : (e.pulse t).pins = { e.pins with hammerHome := false } := rfl
@[simp] theorem Engine.pulse_memory (t : Nat) (e : Engine) : (e.pulse t).memory = e.memory := rfl
@[simp] theorem Engine.pulse_spell (t : Nat) (e : Engine) : (e.pulse t).spell = e.spell := rfl
@[simp] theorem Engine.pulse_port (t : Nat) (e : Engine) : (e.pulse t).port = e.port := rfl
@[simp] theorem Engine.pulse_display (t : Nat) (e : Engine) : (e.pulse t).display = e.display := rfl
@[simp] theorem Engine.pulse_faults (t : Nat) (e : Engine) : (e.pulse t).faults = e.faults := rfl
@[simp] theorem Engine.pulse_selfTest (t : Nat) (e : Engine) : (e.pulse t).selfTest = e.selfTest := rfl
@[simp] theorem Engine.pulse_power (t : Nat) (e : Engine) : (e.pulse t).power = e.power := rfl
@[simp] theorem Engine.pulse_free (t : Nat) (e : Engine) : (e.pulse t).free = e.free := rfl

/-! ## `Engine.channelsOff` -/

@[simp] theorem Engine.channelsOff_link (e : Engine) : (e.channelsOff).link = e.link := rfl
@[simp] theorem Engine.channelsOff_comp (e : Engine) : (e.channelsOff).comp = e.comp := rfl
@[simp] theorem Engine.channelsOff_set (e : Engine) : (e.channelsOff).set = e.set := rfl
@[simp] theorem Engine.channelsOff_esc (e : Engine) : (e.channelsOff).esc = e.esc := rfl
@[simp] theorem Engine.channelsOff_slots (e : Engine) : (e.channelsOff).slots = e.slots := rfl
@[simp] theorem Engine.channelsOff_seq (e : Engine) : (e.channelsOff).seq = { e.seq with recovery := {} } := rfl
@[simp] theorem Engine.channelsOff_carriage (e : Engine) : (e.channelsOff).carriage = { e.carriage with state := .off, timer := none } := rfl
@[simp] theorem Engine.channelsOff_wheel (e : Engine) : (e.channelsOff).wheel = { e.wheel with state := .off, timer := none, homing := none, homingSpan := false, wakeSpan := false } := rfl
@[simp] theorem Engine.channelsOff_platen (e : Engine) : (e.channelsOff).platen = { e.platen with state := .off, knobCount := 0, knobSeen := false } := rfl
@[simp] theorem Engine.channelsOff_lift (e : Engine) : (e.channelsOff).lift = e.lift := rfl
@[simp] theorem Engine.channelsOff_hammer (e : Engine) : (e.channelsOff).hammer = { state := .off } := rfl
@[simp] theorem Engine.channelsOff_levels (e : Engine) : (e.channelsOff).levels = e.levels := rfl
@[simp] theorem Engine.channelsOff_pins (e : Engine) : (e.channelsOff).pins = e.pins := rfl
@[simp] theorem Engine.channelsOff_memory (e : Engine) : (e.channelsOff).memory = e.memory := rfl
@[simp] theorem Engine.channelsOff_spell (e : Engine) : (e.channelsOff).spell = e.spell := rfl
@[simp] theorem Engine.channelsOff_port (e : Engine) : (e.channelsOff).port = e.port := rfl
@[simp] theorem Engine.channelsOff_display (e : Engine) : (e.channelsOff).display = e.display := rfl
@[simp] theorem Engine.channelsOff_faults (e : Engine) : (e.channelsOff).faults = e.faults := rfl
@[simp] theorem Engine.channelsOff_selfTest (e : Engine) : (e.channelsOff).selfTest = e.selfTest := rfl
@[simp] theorem Engine.channelsOff_power (e : Engine) : (e.channelsOff).power = e.power := rfl
@[simp] theorem Engine.channelsOff_free (e : Engine) : (e.channelsOff).free = e.free := rfl

/-! ## `Engine.stopWait` -/

@[simp] theorem Engine.stopWait_link (e : Engine) : (e.stopWait).link = e.link := rfl
@[simp] theorem Engine.stopWait_comp (e : Engine) : (e.stopWait).comp = e.comp := rfl
@[simp] theorem Engine.stopWait_set (e : Engine) : (e.stopWait).set = e.set := rfl
@[simp] theorem Engine.stopWait_esc (e : Engine) : (e.stopWait).esc = e.esc := rfl
@[simp] theorem Engine.stopWait_slots (e : Engine) : (e.stopWait).slots = e.slots := rfl
@[simp] theorem Engine.stopWait_seq (e : Engine) : (e.stopWait).seq = e.seq := rfl
@[simp] theorem Engine.stopWait_carriage (e : Engine) : (e.stopWait).carriage = e.carriage := rfl
@[simp] theorem Engine.stopWait_wheel (e : Engine) : (e.stopWait).wheel = e.wheel := rfl
@[simp] theorem Engine.stopWait_platen (e : Engine) : (e.stopWait).platen = e.platen := rfl
@[simp] theorem Engine.stopWait_lift (e : Engine) : (e.stopWait).lift = e.lift := rfl
@[simp] theorem Engine.stopWait_hammer (e : Engine) : (e.stopWait).hammer = { e.hammer with waitTimer := none } := rfl
@[simp] theorem Engine.stopWait_levels (e : Engine) : (e.stopWait).levels = e.levels := rfl
@[simp] theorem Engine.stopWait_pins (e : Engine) : (e.stopWait).pins = e.pins := rfl
@[simp] theorem Engine.stopWait_memory (e : Engine) : (e.stopWait).memory = e.memory := rfl
@[simp] theorem Engine.stopWait_spell (e : Engine) : (e.stopWait).spell = e.spell := rfl
@[simp] theorem Engine.stopWait_port (e : Engine) : (e.stopWait).port = e.port := rfl
@[simp] theorem Engine.stopWait_display (e : Engine) : (e.stopWait).display = e.display := rfl
@[simp] theorem Engine.stopWait_faults (e : Engine) : (e.stopWait).faults = e.faults := rfl
@[simp] theorem Engine.stopWait_selfTest (e : Engine) : (e.stopWait).selfTest = e.selfTest := rfl
@[simp] theorem Engine.stopWait_power (e : Engine) : (e.stopWait).power = e.power := rfl
@[simp] theorem Engine.stopWait_free (e : Engine) : (e.stopWait).free = e.free := rfl

/-! ## `Engine.refresh`: only the display follows -/

@[simp] theorem Engine.refresh_link (e : Engine) : e.refresh.link = e.link := by
  unfold Engine.refresh; split <;> rfl
@[simp] theorem Engine.refresh_comp (e : Engine) : e.refresh.comp = e.comp := by
  unfold Engine.refresh; split <;> rfl
@[simp] theorem Engine.refresh_set (e : Engine) : e.refresh.set = e.set := by
  unfold Engine.refresh; split <;> rfl
@[simp] theorem Engine.refresh_esc (e : Engine) : e.refresh.esc = e.esc := by
  unfold Engine.refresh; split <;> rfl
@[simp] theorem Engine.refresh_slots (e : Engine) : e.refresh.slots = e.slots := by
  unfold Engine.refresh; split <;> rfl
@[simp] theorem Engine.refresh_seq (e : Engine) : e.refresh.seq = e.seq := by
  unfold Engine.refresh; split <;> rfl
@[simp] theorem Engine.refresh_carriage (e : Engine) : e.refresh.carriage = e.carriage := by
  unfold Engine.refresh; split <;> rfl
@[simp] theorem Engine.refresh_wheel (e : Engine) : e.refresh.wheel = e.wheel := by
  unfold Engine.refresh; split <;> rfl
@[simp] theorem Engine.refresh_platen (e : Engine) : e.refresh.platen = e.platen := by
  unfold Engine.refresh; split <;> rfl
@[simp] theorem Engine.refresh_lift (e : Engine) : e.refresh.lift = e.lift := by
  unfold Engine.refresh; split <;> rfl
@[simp] theorem Engine.refresh_hammer (e : Engine) : e.refresh.hammer = e.hammer := by
  unfold Engine.refresh; split <;> rfl
@[simp] theorem Engine.refresh_levels (e : Engine) : e.refresh.levels = e.levels := by
  unfold Engine.refresh; split <;> rfl
@[simp] theorem Engine.refresh_pins (e : Engine) : e.refresh.pins = e.pins := by
  unfold Engine.refresh; split <;> rfl
@[simp] theorem Engine.refresh_memory (e : Engine) : e.refresh.memory = e.memory := by
  unfold Engine.refresh; split <;> rfl
@[simp] theorem Engine.refresh_spell (e : Engine) : e.refresh.spell = e.spell := by
  unfold Engine.refresh; split <;> rfl
@[simp] theorem Engine.refresh_port (e : Engine) : e.refresh.port = e.port := by
  unfold Engine.refresh; split <;> rfl
@[simp] theorem Engine.refresh_faults (e : Engine) : e.refresh.faults = e.faults := by
  unfold Engine.refresh; split <;> rfl
@[simp] theorem Engine.refresh_selfTest (e : Engine) : e.refresh.selfTest = e.selfTest := by
  unfold Engine.refresh; split <;> rfl
@[simp] theorem Engine.refresh_power (e : Engine) : e.refresh.power = e.power := by
  unfold Engine.refresh; split <;> rfl
@[simp] theorem Engine.refresh_free (e : Engine) : e.refresh.free = e.free := by
  unfold Engine.refresh; split <;> rfl

end Sys2Proof.Machine
end

