-- ==== Sys2Proof/Tests/Slice0.lean ====
section
/-! SUPPORT. Tests: the checks of `Instr.wellFormed` refuse ill-formed commands, single steps give what the spec's
rules and worked sequences say, and for every statement with hypotheses a state meets those of each clause. -/

set_option Elab.async false

namespace Sys2Proof.Tests

open Sys2Proof Sys2Proof.Machine

/-! ## Well-formedness: one ill-formed command for each check -/

theorem test_wf_key : Instr.wellFormed (.key []) = false ∧
    Instr.wellFormed (.key (List.replicate 17 ⟨0x61, 0⟩)) = false := by decide
theorem test_wf_wheelTablePiece : Instr.wellFormed (.wheelTablePiece 0 0 (List.replicate 8 ⟨1, 2, 0⟩)) = false ∧
    Instr.wellFormed (.wheelTablePiece 0 1 (List.replicate 7 ⟨1, 2, 0⟩)) = false := by decide
theorem test_wf_addWord : Instr.wellFormed (.addWord [0x61]) = false ∧
    Instr.wellFormed (.addWord (List.replicate 25 0x61)) = false := by decide
theorem test_wf_removeWord : Instr.wellFormed (.removeWord [0x61]) = false ∧
    Instr.wellFormed (.removeWord (List.replicate 25 0x61)) = false := by decide
theorem test_wf_displayText : Instr.wellFormed (.displayText 5 (List.replicate 39 0x41)) = false := by decide
theorem test_wf_restoreContext : Instr.wellFormed (.restoreContext []) = false ∧
    Instr.wellFormed (.restoreContext (List.replicate 58 0)) = false := by decide
theorem test_wf_unknownFrame : Instr.wellFormed (.unknownFrame 0x0E) = false := by decide
theorem test_wf_flashReadEnd : Instr.wellFormed (.flashReadEnd [] 0) = false ∧
    Instr.wellFormed (.flashReadEnd (List.replicate 293 0) 0) = false := by decide +kernel

/-! ## States -/

/-- A wheel of 95 petals in order, 5 units wide, class 1, without the glyph 49h. -/
def slotSeven : WheelSlot :=
  { state := .ready, id := 7, pitch := .p10, space := 5, underline := some 0x5F
    entries := (List.range 95).map fun i => ⟨if i = 40 then none else some i, 5, 1⟩ }

/-- The part in RUN at rest, with a frame on the line. -/
def running : State :=
  { State.reset with
    link := { tx := some ⟨⟨0x86, [0x00, 0x07]⟩, false⟩ }
    port := {}
    spell := { dict := .ready, bucketCount := 256 }
    slots := [slotSeven, {}, {}, {}]
    comp := { wheel := some 7 }
    seq := { state := .idle }
    carriage := { state := .idle, position := 120 }
    wheel := { state := .settled, petal := some 0, mounted := some 7, found := some 7 }
    power := { state := .run, startUp := none, conditions := true } }

def comp (f : Composition → Composition) (s : State) : State := { s with comp := f s.comp }
def seq (f : Sequencer → Sequencer) (s : State) : State := { s with seq := f s.seq }
def power (f : Power → Power) (s : State) : State := { s with power := f s.power }
def link (f : Link → Link) (s : State) : State := { s with link := f s.link }
def set (f : Settings → Settings) (s : State) : State := { s with set := f s.set }
def wheel (f : Wheel → Wheel) (s : State) : State := { s with wheel := f s.wheel }
def carriage (f : Carriage → Carriage) (s : State) : State := { s with carriage := f s.carriage }
def platen (f : Platen → Platen) (s : State) : State := { s with platen := f s.platen }
def lift (f : Lift → Lift) (s : State) : State := { s with lift := f s.lift }
def hammer (f : Hammer → Hammer) (s : State) : State := { s with hammer := f s.hammer }
def spell (f : Spelling → Spelling) (s : State) : State := { s with spell := f s.spell }
def levels (f : Levels → Levels) (s : State) : State := { s with levels := f s.levels }

/-- The head key of the key queue, alone. -/
def keyed (code : Byte) (s : State) : State := comp (fun c => { c with keys := [⟨code, false, false⟩] }) s

/-- A cell of 12 steps. -/
def cellAt (x : Nat) (content : Content) (origin : Origin) : Cell := ⟨x, 12, content, false, false, none, origin, none⟩

/-- An open line: a letter, a space, a letter, with the cursor behind them. -/
def opened (s : State) : State :=
  comp (fun c => { c with
    line := [cellAt 120 (.glyph 0x61) .unreleased, cellAt 132 .space .unreleased, cellAt 144 (.glyph 0x62) .unreleased]
    cursor := 156, index := 3 }) (set (fun t => { t with mode := .line }) s)

/-- An order of group 0 at 120. -/
def orderOf (n : Nat) (kind : OrderKind) (state : OrderState := .queued) : Order :=
  { number := n, kind := kind, group := 0, horizontal := 120, vertical := 0, state := state }

/-- The strike queue with some orders, RUNNING. -/
def queued (orders : List Order) (s : State) : State :=
  seq (fun q => { q with queue := orders, nextOrder := 9, state := .running }) s

/-- The fields of a STRIKE of the letter a. -/
def strikeA : StrikeFields :=
  { glyph := some 0x61, petal := some 64, underlinePetal := none, width := 12, onTime := 1100, bold := false
    underline := false, word := none, fires := [⟨.glyph, 120, some 64⟩] }

/-- A fault of a kind in the X slot. -/
def faulted (kind : FaultKind) (s : State) : State :=
  { seq (fun q => { q with state := .faulted }) s with
    faults := { x := some ⟨kind, none, 0, none, none, false, none, 0, []⟩ } }

/-- The part in a resting power state. -/
def resting (p : PowerState) (s : State) : State := power (fun w => { w with state := p }) s

/-- The display lit. -/
def lit (s : State) : State := { s with display := { s.display with lit := true } }

/-- One order of an open group. -/
def grouped (s : State) : State :=
  seq (fun q => { q with groups := [{ id := 3, kind := .line, remaining := 1 }] })
    (queued [{ orderOf 0 .move with group := 3 }] s)

/-- A character on paper, of a word or of none, with its record, and a space behind it. -/
def remembered (word : Option WordId) (s : State) : State :=
  { comp (fun c => { c with
      line := [{ cellAt 120 (.glyph 0x61) (.onPaper (some 3)) with word := word }, cellAt 132 .space (.onPaper none)]
      cursor := 144, index := 2 }) s with
    memory := { records := [⟨3, 0, 0, 120, some 0x61, some 64, none, 7, 12, 1100, [⟨.glyph, 120, some 64⟩], [.glyph],
      [], word⟩] } }

/-- The cell of a STRIKE that stands in the strike queue, and the cursor behind it. -/
def inked (s : State) : State :=
  comp (fun c => { c with line := [cellAt 120 (.glyph 0x61) (.queued 0)], cursor := 132, index := 1 }) s

/-- An executing bold STRIKE of the letter a, with the fires made so far. -/
def strikingTwice (fired : List FireName) : Order :=
  { orderOf 0 (.strike { strikeA with bold := true, fires := [⟨.glyph, 120, some 64⟩, ⟨.shadow, 121, some 64⟩] }) .executing
    with fired := fired, afterHammer := true, record := some 3 }

/-- A start-up step under way. -/
def starting (step : StartUp) : State :=
  { running with power := { startUp := some step }, seq := {} }

/-- Nothing but the homings of a start-up, a wake or a re-homing is under way. -/
abbrev homesAlone (s : State) : Prop :=
  OrdersOk s.seq ∧ s.executing = none ∧ s.seq.recovery = {} ∧ s.selfTest = none ∧ s.power.entering = none ∧
  s.power.deepOff = none ∧ s.seq.liftToView = false

/-- The outcome's state. -/
def after (o : Host.Outcome State Fault Refusal) : State :=
  match o with
  | .next t => t
  | _ => State.reset

/-! ## Single steps, with values from the spec's worked sequences and tables -/

/-- The hub code of R92's worked example, at its eighth mark: 1.5 units read 1 and give 45, 1.49 read 0 and give 44. -/
def readingHub : State :=
  let bits := [false, false, true, false, true, true, false]
  wheel (fun v => { v with state := .homing, homing := some ⟨.cover, none, .read 100 bits⟩ }) running

theorem test_codeMark_hub_45 : (after (exec (.codeMark 150) readingHub)).wheel.homing = some ⟨.cover, none, .park 45⟩ := by
  decide
theorem test_codeMark_hub_44 : (after (exec (.codeMark 149) readingHub)).wheel.homing = some ⟨.cover, none, .park 44⟩ := by
  decide

/-- The hashes and buckets of R144's worked example. -/
theorem test_wordHash : wordHash [3, 1, 2] = 4146 ∧ wordHash [23, 1, 14] = 31538 ∧ wordHash [4, 9, 4] = 5813 ∧
    wordHash [20, 5, 8] = 27573 ∧ wordHash [9, 20, 27, 19] = 25523 := by decide
theorem test_scanBucket : scanBucket [3, 1, 2] 8 [3, 3, 1, 2, 3, 23, 1, 14] = .found ∧
    scanBucket [20, 5, 8] 4 [3, 4, 9, 4] = .missing := by decide

/-- The justified line of chapter 2's worked case: six words of 112, 96, 144, 88, 120 and 82 steps, gaps of 8. -/
def sixWords : List Cell :=
  let word := fun (x w : Nat) => (⟨x, w, .glyph 0x61, false, false, none, .unreleased, none⟩ : Cell)
  let gap := fun (x : Nat) => (⟨x, 8, .space, false, false, none, .unreleased, none⟩ : Cell)
  [word 120 112, gap 232, word 240 96, gap 336, word 344 144, gap 488, word 496 88, gap 584, word 592 120, gap 712,
    word 720 82]

/-- Where the printing cells start, and where the line ends. -/
def starts (d : Distribute) (a : Align) : List Nat × Nat :=
  let p := placeLine { align := a, distribute := d, right := 840 } false sixWords
  ((p.cells.filter fun c => c.content ≠ .space).map (·.start), (p.cells.getLast?.map fun c => c.start + c.width).getD 0)

theorem test_placeLine_spread : starts .spread .justify = ([120, 247, 359, 518, 622, 758], 840) := by decide
theorem test_placeLine_leading : starts .leading .justify = ([120, 248, 360, 520, 623, 758], 840) := by decide
theorem test_placeLine_truncate : (starts .truncate .justify).2 = 837 ∧ (starts .spread .left).2 = 802 := by decide
theorem test_placeLine_inexact :
    (placeLine { align := .justify, right := 840 } false sixWords).flags = { inexact := true } := by decide

/-- R95's worked sequence: an edge backward from 200. -/
theorem test_platenEncoderEdge_knob :
    let t := after (exec (.platenEncoderEdge false)
      (comp (fun c => { c with vTarget := 200 }) (platen (fun p => { p with position := 200 }) running)))
    t.platen.position = 196 ∧ t.comp.vTarget = 196 := by decide

/-- Chapter 1's DIRECT line: the second space coalesces with the MOVE before it. -/
theorem test_space_coalesces :
    let t := after (exec .space (keyed 0x20 (comp (fun c => { c with cursor := 168 })
      (seq (fun q => { q with state := .paused }) (queued [{ orderOf 3 .move with horizontal := 168 }] running)))))
    t.comp.cursor = 180 ∧ t.seq.queue.map (fun o => (o.number, o.horizontal)) = [(3, 180)] := by decide

/-- Chapter 1's DIRECT line: the key x at 168 replaces the space cell there with a STRIKE of a new word. -/
theorem test_printableKey_overtypes :
    let t := after (exec .printableKey (keyed 0x78 (comp (fun c => { c with
        cursor := 168, line := [cellAt 156 .space (.queued 3), cellAt 168 .space (.queued 3)] })
      (seq (fun q => { q with state := .paused }) (queued [{ orderOf 3 .move with horizontal := 168 }] running)))))
    t.comp.cursor = 180 ∧ t.comp.line.map (·.start) = [156, 168] ∧ t.comp.word ≠ none ∧
    t.seq.queue.map (·.horizontal) = [168, 168] := by decide

/-- The open line "ab cd efgh" of R21's worked sequence, with margins 120 and 240. -/
def wrapping : State :=
  let c := fun (x : Nat) (k : Content) => cellAt x k .unreleased
  let l := Content.glyph 0x61
  comp (fun d => { d with cursor := 240, line := [c 120 l, c 132 l, c 144 .space, c 156 l, c 168 l, c 180 .space,
    c 192 l, c 204 l, c 216 l, c 228 l] }) (set (fun t => { t with mode := .line, right := 240 }) running)

theorem test_printableKey_wraps :
    let t := after (exec .printableKey (keyed 0x69 wrapping))
    t.comp.line.map (·.start) = [120, 132, 144, 156, 168] ∧ t.comp.cursor = 180 ∧ t.comp.vTarget = 8 ∧
    t.seq.queue.map (·.horizontal) = [120, 132, 156, 168, 120] ∧ t.seq.stageState = .empty := by decide

/-- Chapter 8's window: the 36th letter takes the window start to 1. -/
theorem test_printableKey_moves_window :
    let line := (List.range 35).map fun i => cellAt (120 + 12 * i) (.glyph 0x61) (.onPaper none)
    (after (exec .printableKey (keyed 0x61 (comp (fun c => { c with cursor := 540, line := line, index := 35 })
      running)))).display.window = 1 := by decide

/-- Chapter 11's worked sequence: at 15 notices the BELL becomes an OVERFLOW of count 1. -/
theorem test_takeNotice_overflow :
    takeNotice (.bell .approach) (List.replicate 15 (.power .run)) = List.replicate 15 (.power .run) ++ [.overflow 1] := by
  decide

/-- Chapter 11's worked sequence: the STATUS reply is a frame of 29 bytes, its type and length among them. -/
theorem test_status_length :
    (after (exec .status running)).link.replies.map (fun r => (r.frame.typ, r.frame.payload.length + 2)) = [(0x4E, 29)] := by
  decide

/-- R87 and R88: a carriage under way that reaches its target is idle there. -/
theorem test_carriageMoveEnd :
    (after (exec .carriageMoveEnd (carriage (fun c => { c with state := .moving, target := 1599 }) running))).carriage.position
      = 1599 := by decide

/-- R96: the switch readings of the lift. -/
theorem test_liftSwitchChange_correct : (after (exec (.liftSwitchChange true true)
    (lift (fun l => { l with state := .moving, target := .correct }) running))).lift.state = .held .correct := by decide

/-- R46: a wheel slot takes the 95 entries of 12 pieces, the last of which has one entry too many. -/
theorem test_wheelTablePiece_last :
    let s : State := { running with slots :=
      [{ state := .loading 12, id := 9, entries := (List.range 88).map fun i => ⟨some i, 2, 0⟩ }, {}, {}, {}] }
    ((after (exec (.wheelTablePiece 0 12 (List.replicate 8 ⟨1, 2, 0⟩)) s)).slots.map fun w =>
      (decide (w.state = .ready), w.entries.length)) = [(true, 95), (false, 0), (false, 0), (false, 0)] := by decide

/-- R87 and R75: a MOVE to a target past the travel ends with the carriage at 1599, and the print point there. -/
theorem test_carriageMoveEnd_past :
    let t := after (exec .carriageMoveEnd (carriage (fun c => { c with state := .moving, target := 1599 })
      (queued [{ orderOf 0 .move .executing with horizontal := 1700 }] running)))
    t.seq.queue = [] ∧ t.carriage.position = 1599 ∧ t.seq.printPoint = 1599 := by decide

/-- R195: the identity record has the size code that came with the start-up header read. -/
theorem test_flashReadEnd_size :
    (after (exec (.flashReadEnd (List.replicate 15 0) 16) State.reset)).port.flashSize = 16 := by decide

/-- R93 and R186: after a RESET with the cover open the wheel channel is OFF, during the rest of a fire too. -/
theorem test_reset_uncovered :
    (after (exec .reset (hammer (fun h => { h with state := .rest }) (levels (fun l => { l with closed := false })
      (wheel (fun w => { w with state := .off }) running))))).wheel.state = .off := by decide

/-- R71 and R170: a RESUME during the rest of a fire homes the wheel when the rest has ended. -/
theorem test_resume_waits :
    let s := after (exec .resume (hammer (fun h => { h with state := .rest })
      (wheel (fun w => { w with state := .unknown }) (faulted .wheelStall running))))
    s.wheel.state = .unknown ∧ (after (exec .restEnd s)).wheel.state = .homing := by decide

/-- R77 and R71: the move of the lift at the view timer's expiry waits for a feed, and starts when its last edge has come. -/
theorem test_viewTimerExpiry_waits :
    let s := after (exec .viewTimerExpiry (seq (fun q => { q with viewTimer := some 5 }) (lift (fun l =>
      { l with state := .held .print }) (platen (fun p => { p with state := .feeding, remaining := 4 }) running))))
    s.lift.state = .held .print ∧ (after (exec (.platenEncoderEdge true) s)).lift.state = .moving := by decide

/-- R172: the homing of a STRIKE that a RESUME has requeued meanwhile fails, and the X slot has its fault. -/
theorem test_wheelSearchLimit_requeued :
    let s := after (exec .resume (wheel (fun v => { v with state := .homing, homing := some ⟨.order, some 7, .search⟩ })
      (seq (fun q => { q with state := .faulted }) (faulted .liftStall (queued [orderOf 0 (.strike strikeA) .executing] running)))))
    s.faults.x = none ∧ ((after (exec .wheelSearchLimit s)).faults.x.map fun f => (f.kind, f.order)) =
      some (.wheelHomeFail, some .strike) := by decide

/-- R55: the LIFT that the P fault names has left as stale, so the WHEEL_CHANGE at the head stands behind the fault: the
RESUME's homing requires the wheel mounted before, not the one the WHEEL_CHANGE expects. -/
theorem test_resume_behind :
    let s := { seq (fun q => { q with state := .faulted }) (wheel (fun v => { v with state := .unknown })
      (queued [orderOf 1 (.wheelChange 9)] running)) with
      faults := { p := some ⟨.tapeEnd, some .lift, 0, some (120, 0), some 0x61, false, none, 0, []⟩, named := some 0
                  wheelBefore := some 7 } }
    (after (exec .resume s)).wheel.homing = some ⟨.resume, some 7, .search⟩ := by decide

/-- A forgotten cell of word 4 at 120, where a STRIKE of a word executes, with CORRECT_WORD at the head of the key queue. -/
def underStrike (word : WordId) : State :=
  keyed 0x0B (comp (fun c => { c with
    line := [{ cellAt 120 (.glyph 0x61) (.onPaper none) with word := some 4 }], cursor := 132, index := 1 })
    (queued [orderOf 0 (.strike { strikeA with word := some word }) .executing] running))

/-- R124 and R116: the executing STRIKE of another word is no member of CORRECT_WORD's target set, so the cell is not
remembered. -/
theorem test_correctWord_otherWord :
    (after (exec .correctWord (underStrike 5))).raised (.bell .notRemembered) := by decide

/-- R124 and R120: the executing STRIKE of the word itself is a member, gets a bound LIFT, and no bell is raised. -/
theorem test_correctWord_ownWord :
    let t := after (exec .correctWord (underStrike 4))
    ¬ t.raised (.bell .notRemembered) ∧ (t.seq.queue.map (·.kind)).getLast? = some (.lift (.bound 0)) := by decide

/-! ## WITNESSES

Each theorem shows, for the statement it is named after, states and operands that meet the hypotheses of its clauses. -/

theorem witness_stepRunsFront :
    ({ running with pending := [.status, .wake] } : State).pending = .status :: [.wake] ∧
    running.pending = [] := ⟨rfl, rfl⟩

theorem witness_displayRowZero :
    ∃ t, exec .orderStart (lit running) = .next t ∧ t.display.lit = true ∧ t.display.override = none := ⟨_, rfl, rfl, rfl⟩

theorem witness_displayRowOne :
    (∃ t, exec .orderStart (lit running) = .next t ∧ t.display.lit = true ∧ t.display.override = none) ∧
    (lit running).power.state ≠ .deepOff ∧
    (∀ k, (lit running).display.message ≠ .fault k) ∧
    ({ running with display := { message := .fault .coverOpen } } : State).display.message = .fault .coverOpen := ⟨⟨_, rfl, rfl, rfl⟩, by decide, fun _ => nofun, rfl⟩

theorem witness_settingsKept :
    SettingsOk (set (fun t => { t with left := 1479, right := 1599, tabs := [0, 1599] }) running).set ∧
    ∃ t, step { set (fun t => { t with left := 1479, right := 1599, tabs := [0, 1599] }) running with pending := [.setAlign 3] } = .next t := ⟨by decide, ⟨_, rfl⟩⟩

theorem witness_linkKept :
    LinkOk { tx := some ⟨⟨0x42, [0]⟩, false⟩, notices := List.replicate 15 (.power .run) ++ [.overflow 255] } ∧
    LinkOk running.link ∧
    ∃ t, step { running with pending := [.coverOpenEvent] } = .next t := ⟨⟨by decide, .inr ⟨by decide, 255, by decide, by decide⟩, by decide⟩, by decide, ⟨_, rfl⟩⟩

theorem witness_tablesKept :
    SpellOk running.spell ∧
    MemoryOk running.memory ∧
    ∃ t, step { running with pending := [.dictionary] } = .next t := ⟨by decide, by decide, ⟨_, rfl⟩⟩

theorem witness_ordersKept :
    OffOk (queued [orderOf 0 .move .executing, orderOf 8 (.feed 4) .prepared] running).toEngine ∧
    OffOk (resting .deepOff running).toEngine ∧
    OrdersOk (resting .deepOff running).seq ∧
    OrdersOk (queued [orderOf 0 .move .executing, orderOf 8 (.feed 4) .prepared] running).seq ∧
    ∃ t, step { queued [orderOf 0 .move .executing, orderOf 8 (.feed 4) .prepared] running with pending := [.orderStart] } = .next t := ⟨by decide, by decide, by decide, by decide, ⟨_, rfl⟩⟩

theorem witness_groupsKept :
    OrdersOk (grouped running).seq ∧
    GroupsOk (grouped running).seq ∧
    ∃ t, step { grouped running with pending := [.pause] } = .next t := ⟨by decide, by decide, ⟨_, rfl⟩⟩

theorem witness_lineKept :
    LineOk (opened running).toEngine ∧
    SlotsOk running.slots ∧
    SlotsOk (opened running).slots ∧
    SlotsOk [{ slotSeven with space := 8, entries := [⟨some 95, 2, 0⟩, ⟨none, 8, 3⟩] }] ∧
    ∃ t, step { opened running with pending := [.coverOpenEvent] } = .next t := ⟨by decide, by decide, by decide, by decide, ⟨_, rfl⟩⟩

theorem witness_eventsKeepSettings :
    requestFrame .coverOpenEvent = none ∧
    (∀ b, Instr.coverOpenEvent ≠ .receiveByte b) ∧
    Instr.coverOpenEvent ≠ .hardReset ∧
    running.power.deepOff = none ∧
    (∃ t, exec .coverOpenEvent running = .next t) ∧
    (∀ bytes code, Instr.coverOpenEvent ≠ .flashReadEnd bytes code) ∧
    Instr.coverOpenEvent ≠ .flashReadTimeout := ⟨rfl, fun _ => nofun, nofun, rfl, ⟨_, rfl⟩, fun _ _ => nofun, nofun⟩

theorem witness_requestByItsFrame :
    Instr.wellFormed .wake = true ∧
    requestFrame .wake = some ⟨0x1A, []⟩ ∧
    (link (fun l => { l with rx := { state := .typeTaken, typ := 0x1A } }) running).link.rx.state = .typeTaken ∧
    Instr.wellFormed (.setAlign 3) = true ∧
    requestFrame (.setAlign 3) = some ⟨0x02, [0x08] ++ [3]⟩ ∧
    (link (fun l => { l with rx := { state := .payload, typ := 0x02, length := 2, bytes := [0x08] } }) running).link.rx.bytes = [0x08] := by decide

theorem witness_receiverStates :
    State.reset.link.rx.state = .idle ∧
    running.link.rx.state ≠ .hunt ∧
    running.power.state ≠ .deepOff ∧
    (∀ b ∈ [(1 : Byte), 64], 1 ≤ b.toNat ∧ b.toNat ≤ 64) ∧
    64 < (65 : Byte).toNat ∧
    (link (fun l => { l with rx := { state := .typeTaken, gapTimer := some 3000 } }) running).link.rx.gapTimer.isSome = true ∧
    (∀ r ∈ [({ state := .payload, length := 2 } : Receiver), { state := .payload, length := 64, bytes := List.replicate 62 0 }],
  r.state = .payload ∧
      r.bytes.length + 1 ≠ r.length) ∧
    (link (fun l => { l with rx := { state := .hunt } }) running).link.rx.state = .hunt := by decide

theorem witness_outgoingLine :
    running.link.tx = some ⟨⟨0x86, [0x00, 0x07]⟩, false⟩ ∧
    (∀ k, (List.replicate 14 (Notice.power .run)).getLast? ≠ some (.overflow k)) ∧
    (List.replicate 14 (Notice.power .run)).length < 15 ∧
    (∀ k, (List.replicate 15 (Notice.power .run)).getLast? ≠ some (.overflow k)) ∧
    (List.replicate 15 (Notice.power .run)).length = 15 := ⟨rfl, fun _ => by simp, by decide, fun _ => by simp, by decide⟩

theorem witness_overrunAndOff_frames :
    (∀ b ∈ [(0x00 : Byte), 0x03, 0x3F, 0x40, 0xFF], Instr.wellFormed (.unknownFrame b) = true) ∧
    running.link.replies.length < 8 ∧
    (resting .deepOff running).link.replies.length < 8 := by decide

theorem witness_overrunAndOff :
    (link (fun l => { l with replies := List.replicate 8 ⟨⟨0x42, [0]⟩, false⟩ }) running).link.replies.length = 8 ∧
    running.power.state ≠ .deepOff ∧
    (resting .deepOff running).power.state = .deepOff ∧
    Instr.wellFormed (.key [⟨0x61, 0⟩]) = true ∧
    requestFrame (.key [⟨0x61, 0⟩]) = some ⟨0x01, [0x61, 0]⟩ ∧
    (∀ typ, Instr.key [⟨0x61, 0⟩] ≠ .unknownFrame typ) := ⟨by decide, by decide, by decide, by decide, by decide, fun _ => nofun⟩

theorem witness_plainSettings :
    running.hears ∧
    3 < (4 : Byte).toNat ∧
    1 < (2 : Byte).toNat ∧
    (1 : Byte).toNat < 2 ∧
    6 < (7 : Byte).toNat := by decide

theorem witness_marginsAndTabs :
    running.hears ∧
    SettingsOk running.set ∧
    (780 : Half).toNat ≤ 1599 := by decide

theorem witness_marginsAndTabs_stops :
    running.hears ∧
    1599 ∉ running.set.tabs ∧
    running.set.tabs.length < 16 ∧
    (set (fun t => { t with tabs := List.range 16 }) running).set.tabs.Pairwise (· < ·) ∧
    16 ≤ (List.range 16).length ∧
    min 1599 (1600 : Half).toNat ∉ List.range 16 ∧
    (15 : Half).toNat ∈ List.range 16 ∧
    (16 : Half).toNat ∉ List.range 16 ∧
    (∀ s ∈ [set (fun t => { t with tabs := List.range 16 }) running], s.hears ∧ s.set.tabs.Pairwise (· < ·) ∧
      16 ≤ s.set.tabs.length ∧ min 1599 (1600 : Half).toNat ∉ s.set.tabs ∧ (15 : Half).toNat ∈ s.set.tabs) := by decide

theorem witness_plainSettings_clamped :
    running.hears ∧
    running.power.timer = none ∧
    (power (fun p => { p with timer := some 5 }) running).power.timer ≠ none := by decide

theorem witness_plainSettings_energy :
    running.hears ∧
    SettingsOk running.set ∧
    3 < (4 : Byte).toNat ∧
    3 < (4 : Byte).toNat ∧
    (3 : Byte).toNat ≤ 3 ∧
    1 ≤ (1 : Byte).toNat ∧
    (3 : Byte).toNat ≤ 3 := by decide

theorem witness_modePitchSpell :
    running.hears ∧
    running.comp.line = [] ∧
    running.seq.stageState = .empty ∧
    (opened running).comp.line ≠ [] ∧
    (opened running).hears ∧
    1 < (2 : Byte).toNat ∧
    readySlot running.slots running.comp.wheel = some slotSeven ∧
    slotSeven.pitch ≠ .ps ∧
    readySlot State.reset.slots State.reset.comp.wheel = none ∧
    State.reset.hears ∧
    4 < (5 : Byte).toNat := by decide

theorem witness_modePitchSpell_spell :
    running.hears ∧
    (seq (fun q => { q with stageState := .held }) running).seq.stageState = .held ∧
    2 < (3 : Byte).toNat ∧
    (∀ s ∈ [seq (fun q => { q with stageState := .held }) running], s.hears ∧ s.seq.stageState = .held) := by decide

theorem witness_keyRequest :
    running.hears ∧
    (resting .standby running).hears ∧
    (resting .standby running).power.softReset = none ∧
    (∀ l ∈ [List.replicate 1 (⟨0x01, 0⟩ : KeyBytes), List.replicate 16 ⟨0x7F, 3⟩], 1 ≤ l.length ∧
      l.length ≤ 16 ∧
  ∀ k ∈ l, (1 ≤ k.code.toNat ∧ k.code.toNat ≤ 0x0D) ∨ (0x20 ≤ k.code.toNat ∧
      k.code.toNat ≤ 0x7F)) ∧
    (∀ c ∈ [(0x00 : Byte), 0x0E, 0x1F, 0x80], ¬ ((1 ≤ c.toNat ∧ c.toNat ≤ 0x0D) ∨ (0x20 ≤ c.toNat ∧
      c.toNat ≤ 0x7F))) := by decide

theorem witness_wheelTableLoads :
    running.hears ∧
    State.reset.hears ∧
    State.reset.power.state = .starting ∧
    running.power.state ≠ .starting ∧
    3 < (4 : Byte).toNat ∧
    (running.slots.getD 0 {}).state = .ready ∧
    running.comp.wheel = some (running.slots.getD 0 {}).id ∧
    (queued [orderOf 0 .move] running).seq.queue ≠ [] ∧
    (queued [orderOf 0 .move] running).hears ∧
    running.seq.queue = [] ∧
    running.seq.stage = [] ∧
    (3 : Byte).toNat ≤ 3 ∧
    (254 : Byte) ≠ 255 ∧
    (∀ s ∈ [queued [orderOf 0 .move] running], s.hears ∧ s.power.state ≠ .starting ∧
      (s.slots.getD 0 {}).state = .ready ∧ s.comp.wheel = some (s.slots.getD 0 {}).id ∧ s.seq.queue ≠ []) := by decide

theorem witness_wheelTableLoads_pieces :
    running.hears ∧
    running.power.state ≠ .starting ∧
    (List.replicate 8 (⟨1, 2, 0⟩ : GlyphBytes)).length = 8 ∧
    (∀ n ∈ [1, 11, 12], (({ running with slots := [{ state := .loading n }, {}, {}, {}] } : State).slots.getD 0 {}).state = .loading n) ∧
    (11 : Byte).toNat < 12 ∧
    (13 : Byte) ≠ 0 ∧
    12 ≠ (13 : Byte).toNat ∧
    (running.slots.getD 0 {}).state = .ready ∧
    (running.slots.getD 3 {}).state = .empty ∧
    (∀ b ∈ (List.replicate 7 (⟨1, 2, 0⟩ : GlyphBytes) ++ [(⟨1, 9, 0⟩ : GlyphBytes)]).take 7, 2 ≤ b.units.toNat ∧
      b.units.toNat ≤ 8 ∧ b.cls.toNat ≤ 3) ∧
    (∀ s ∈ [{ running with slots := [{ state := .loading 12 }, {}, {}, {}] }], s.hears ∧
      s.power.state ≠ .starting ∧ (s.slots.getD 0 {}).state = .loading 12) := by decide

theorem witness_flashTables_lookup :
    (∀ w ∈ running.slots, w.state = .ready → w.id ≠ 9) ∧
    running.slots = [] ++ slotSeven :: [{}, {}, {}] ∧
    slotSeven.state = .ready ∧
    slotSeven.id = 7 ∧
    slotSeven.entries[(0x49 : Byte).toNat - 0x21]? = some ⟨none, 5, 1⟩ ∧
    slotSeven.entries[(0x7F : Byte).toNat - 0x21]? = some ⟨some 94, 5, 1⟩ := by decide

theorem witness_wheelChangeRequest :
    running.hears ∧
    running.power.state ≠ .starting ∧
    State.reset.power.state = .starting ∧
    State.reset.hears ∧
    (faulted .paperOut running).faults.x ≠ none ∧
    (faulted .paperOut running).hears ∧
    (0 : Byte) ≠ 255 ∧
    (254 : Byte) ≠ 255 ∧
    running.faults.x = none ∧
    running.faults.p = none ∧
    running.seq.stageState = .empty ∧
    ¬ 32 ≤ running.seq.queue.length ∧
    NumbersOk running.seq ∧
    running.seq.stage = [] ∧
    (resting .sleep running).hears ∧
    (resting .sleep running).power.softReset = none := by decide

theorem witness_groupIds :
    (seq (fun q => { q with groups := [{ id := 255, kind := .line, remaining := 1 }], lastGroup := 254 }) running).seq.groups.length ≤ 33 := by decide

theorem witness_readLineReply :
    running.hears ∧
    24 < (25 : Byte).toNat ∧
    (24 : Byte).toNat ≤ 24 ∧
    (opened running).hears ∧
    (1 : Byte).toNat ≠ 0 ∧ (opened running).comp.line.length ≤ 8 * (1 : Byte).toNat ∧
    8 * (1 : Byte).toNat < (List.replicate 9 (cellAt 0 .space .unreleased)).length := by decide

theorem witness_releaseRequest :
    (seq (fun q => { q with stageState := .held }) running).hears ∧
    (seq (fun q => { q with stageState := .held }) running).seq.stageState = .held ∧
    running.hears ∧
    running.seq.stageState ≠ .held := by decide

theorem witness_acceptWord :
    (spell (fun p => { p with words := [⟨5, [1, 2], false, .suspect, 0, 0, 120⟩] }) running).hears ∧
    SpellOk (spell (fun p => { p with words := [⟨5, [1, 2], false, .suspect, 0, 0, 120⟩] }) running).spell ∧
    [(⟨5, [1, 2], false, .suspect, 0, 0, 120⟩ : WordEntry)] = [] ++ ⟨5, [1, 2], false, .suspect, 0, 0, 120⟩ :: [] ∧
    SpellOk running.spell ∧
    (∀ x ∈ running.spell.words, x.id = 5 → x.state ≠ .suspect) := by decide

theorem witness_userWordList :
    running.hears ∧
    (∀ n ∈ [2, 24], (foldRequest (List.replicate n 0x61)).isSome = true) ∧
    foldRequest [0x61, 0x31] = none ∧
    running.spell.user.length < 64 ∧
    (∀ x ∈ foldRequest [0x61, 0x62], x ∉ running.spell.user) ∧
    64 ≤ ((List.range 64).map fun i => [i]).length ∧
    (∀ x ∈ foldRequest [0x61, 0x62], x ∉ (List.range 64).map fun i => [i]) ∧
    (∀ s ∈ [spell (fun p => { p with user := (List.range 64).map fun i => [i] }) running], s.hears ∧
      64 ≤ s.spell.user.length ∧ ∀ x ∈ foldRequest [0x61, 0x62], x ∉ s.spell.user) := by decide

theorem witness_flashTables_scan :
    (∀ v ∈ [[1, 2], [1, 3]], 1 ≤ v.length ∧ v.length ≤ 24 ∧ ∀ c ∈ v, c < 256) ∧
    [[1, 2], [1, 3]].Pairwise (fun a b => sortsAfter b a = true) ∧
    1 ≤ [255].length ∧
    (List.replicate 24 0).length ≤ 24 := by decide

theorem witness_dictionaryRequest :
    running.hears ∧
    State.reset.hears ∧
    State.reset.spell.dict = .probing ∧
    running.power.state ≠ .starting ∧
    running.spell.dict ≠ .probing ∧
    running.port.current = none ∧
    State.reset.port.current ≠ none ∧
    (spell (fun p => { p with dict := .ready }) State.reset).spell.dict ≠ .probing ∧
    (∀ s ∈ [{ spell (fun p => { p with lookups := [⟨some 5, 0, [1, 2], .bucket⟩, ⟨some 6, 0, [1, 2], .waiting⟩] }) running with port := State.reset.port }], s.hears ∧
      s.power.state ≠ .starting ∧ s.spell.dict ≠ .probing ∧ s.port.current ≠ none) := by decide

theorem witness_displayText :
    running.hears ∧
    (List.replicate 40 (0x41 : Byte)).length = 40 ∧
    (resting .sleep running).hears ∧
    running.power.state ≠ .sleep ∧
    60 < (61 : Byte).toNat ∧
    (∀ b ∈ [(1 : Byte), 60], 1 ≤ b.toNat ∧ b.toNat ≤ 60) := by decide

theorem witness_recordsRead :
    running.hears ∧
    running.carriage.state ≠ .moving ∧
    running.carriage.state ≠ .homing ∧
    running.faults.x = none ∧
    running.faults.p = none ∧
    running.comp.composed = false ∧
    (comp (fun c => { c with composed := true }) running).comp.composed = true ∧
    (faulted .paperOut running).faults.x ≠ none ∧
    (faulted .paperOut running).hears ∧
    (∀ s ∈ [comp (fun c => { c with composed := true }) running], s.hears ∧ s.carriage.state ≠ .moving ∧
      s.carriage.state ≠ .homing ∧ s.faults.x = none ∧ s.faults.p = none ∧ s.comp.composed = true) ∧
    (∀ s ∈ [faulted .paperOut running], s.hears ∧ s.carriage.state ≠ .moving ∧ s.carriage.state ≠ .homing ∧
      s.faults.x ≠ none) := by decide

theorem witness_restoreContext :
    running.hears ∧
    running.set.spacing ∈ [8, 12, 16, 20, 24] ∧
    (List.range 16).length ≤ 16 ∧
    (List.range 16).Pairwise (· < ·) ∧
    (∀ t ∈ [1599], t ≤ 1599) ∧
    running.power.state ≠ .starting ∧
    running.comp.keys = [] ∧
    running.seq.queue = [] ∧
    running.seq.stageState = .empty ∧
    running.comp.line = [] ∧
    running.faults.x = none ∧
    running.faults.p = none ∧
    State.reset.hears ∧
    State.reset.power.state = .starting ∧
    (opened running).hears ∧
    (opened running).comp.line ≠ [] ∧
    2 < (3 : Byte).toNat ∧
    (resting .standby running).hears ∧
    (resting .standby running).power.softReset = none := by decide

theorem witness_selfTestRequest :
    running.hears ∧
    running.power.state = .run ∧
    running.selfTest = none ∧
    running.comp.keys = [] ∧
    running.seq.queue = [] ∧
    running.seq.stageState = .empty ∧
    running.faults.x = none ∧
    running.faults.p = none ∧
    running.seq.state = .idle ∧
    running.idleChannels ∧
    running.quiet ∧
    running.lift.state = .held .view ∧
    running.carriage.state = .idle ∧
    (lift (fun l => { l with state := .held .print }) running).lift.state = .held .print ∧
    (keyed 0x61 running).hears ∧
    (keyed 0x61 running).comp.keys ≠ [] ∧
    (carriage (fun c => { c with state := .lost }) running).carriage.state = .lost := by decide

theorem witness_selfTestRequest_2 :
    (∀ s ∈ [lift (fun l => { l with state := .held .print }) running], s.hears ∧ s.power.state = .run ∧
      s.selfTest = none ∧ s.comp.keys = [] ∧ s.seq.queue = [] ∧ s.seq.stageState = .empty ∧ s.faults.x = none ∧
      s.faults.p = none ∧ s.seq.state = .idle ∧ s.idleChannels ∧ s.quiet ∧ s.lift.state = .held .print) := by decide

theorem witness_pauseAndContinue :
    running.hears ∧
    NumbersOk running.seq ∧
    running.seq.state = .idle ∧
    State.reset.hears ∧
    State.reset.seq.state = .stopped ∧
    NumbersOk State.reset.seq ∧
    (faulted .paperOut running).seq.state = .faulted ∧
    (faulted .paperOut running).hears ∧
    (seq (fun q => { q with state := .paused }) running).seq.state = .paused ∧
    (queued [orderOf 0 .move .executing] running).seq.state = .running ∧
    NumbersOk (queued [orderOf 0 .move .executing] running).seq ∧
    (queued [orderOf 0 .move] running).hears ∧
    (orderOf 0 .move).held = none ∧
    (seq (fun q => { q with pausePending := true }) (queued [orderOf 0 .move .executing] running)).seq.pausePending = true ∧
    (seq (fun q => { q with state := .paused }) (queued [orderOf 0 .move] running)).failure (orderOf 0 .move) = none ∧
    running.seq.recovery = {} ∧
    (∀ s ∈ [queued [orderOf 0 .move .executing] running], s.hears ∧ NumbersOk s.seq ∧ s.seq.state = .running ∧
      s.seq.pausePending = false ∧ s.faults.p = none ∧ s.seq.queue = [orderOf 0 .move .executing]) := by decide

theorem witness_pauseAndContinue_2 :
    (∀ s ∈ [queued [orderOf 0 .move] running], s.hears ∧ NumbersOk s.seq ∧ s.seq.state = .running ∧
      s.seq.pausePending = false ∧ s.faults.p = none ∧ s.seq.queue = [orderOf 0 .move]) ∧
    (∀ s ∈ [seq (fun q => { q with pausePending := true }) (queued [orderOf 0 .move .executing] running)], s.hears ∧
      NumbersOk s.seq ∧ s.seq.state = .running ∧ s.seq.pausePending = true ∧ s.faults.p = none) ∧
    (∀ s ∈ [seq (fun q => { q with state := .paused }) (queued [orderOf 0 .move] running)], s.hears ∧
      NumbersOk s.seq ∧ s.seq.state = .paused ∧ s.seq.recovery = {} ∧ s.lasts (orderOf 0 .move) ∧
      s.failure (orderOf 0 .move) = none) ∧
    (∀ s ∈ [seq (fun q => { q with state := .paused }) running], s.hears ∧ NumbersOk s.seq ∧
      s.seq.state = .paused ∧ s.seq.queue = [] ∧ s.seq.stage = []) := by decide

theorem witness_resumeRequest :
    (faulted .liftStall running).hears ∧
    (faulted .liftStall running).power.state ≠ .starting ∧
    (faulted .liftStall running).power.softReset = none ∧
    (faulted .liftStall running).faults.x ≠ none ∧
    (faulted .liftStall running).levels.closed = true ∧
    (faulted .liftStall running).levels.present = true ∧
    (faulted .liftStall running).levels.ribbonEnd = false ∧
    (faulted .liftStall running).levels.tapeEnd = false ∧
    running.selfTest = none ∧
    running.power.entering = none ∧
    running.power.startUp = none ∧
    running.quiet ∧
    running.hears ∧
    running.faults.x = none ∧
    running.faults.p = none ∧
    State.reset.hears ∧
    State.reset.power.state = .starting ∧
    (carriage (fun c => { c with state := .lost }) (faulted .carriageStall running)).carriage.state = .lost ∧
    (lift (fun l => { l with state := .unknown }) (faulted .liftStall running)).lift.state = .unknown ∧
    (wheel (fun v => { v with state := .unknown }) (faulted .wheelStall running)).wheel.state = .unknown ∧
    (faulted .wheelStall running).executing = none ∧
    (levels (fun l => { l with closed := false }) (faulted .coverOpen running)).levels.closed = false := by decide

theorem witness_resumeRequest_2 :
    (∀ s ∈ [carriage (fun c => { c with state := .lost }) (faulted .carriageStall running)], s.hears ∧
      s.power.state ≠ .starting ∧ s.power.softReset = none ∧ s.faults.x ≠ none ∧ s.levels.closed = true ∧
      s.levels.present = true ∧ s.levels.ribbonEnd = false ∧ s.levels.tapeEnd = false ∧ s.selfTest = none ∧
      s.power.entering = none ∧ s.power.startUp = none ∧ s.quiet ∧ OrdersOk s.seq ∧ s.executing = none ∧
      s.carriage.state = .lost) := by decide

theorem witness_resumeRequest_3 :
    (∀ s ∈ [lift (fun l => { l with state := .unknown }) (faulted .liftStall running)], s.hears ∧
      s.power.state ≠ .starting ∧ s.power.softReset = none ∧ s.faults.x ≠ none ∧ s.levels.closed = true ∧
      s.levels.present = true ∧ s.levels.ribbonEnd = false ∧ s.levels.tapeEnd = false ∧ s.selfTest = none ∧
      s.power.entering = none ∧ s.power.startUp = none ∧ s.quiet ∧ OrdersOk s.seq ∧ s.executing = none ∧
      s.lift.state = .unknown) := by decide

theorem witness_resumeRequest_4 :
    (∀ s ∈ [wheel (fun v => { v with state := .unknown }) (faulted .wheelStall running)], s.hears ∧
      s.power.state ≠ .starting ∧ s.power.softReset = none ∧ s.faults.x ≠ none ∧ s.levels.closed = true ∧
      s.levels.present = true ∧ s.levels.ribbonEnd = false ∧ s.levels.tapeEnd = false ∧ s.selfTest = none ∧
      s.power.entering = none ∧ s.power.startUp = none ∧ s.quiet ∧ OrdersOk s.seq ∧ s.executing = none ∧
      s.wheel.state = .unknown) := by decide

theorem witness_resumeRequest_5 :
    (∀ s ∈ [hammer (fun d => { d with state := .on }) (wheel (fun v => { v with state := .unknown }) (faulted .wheelStall running)), hammer (fun d => { d with state := .rest }) (wheel (fun v => { v with state := .off }) (faulted .coverOpen running))], s.hears ∧
      s.power.state ≠ .starting ∧ s.power.softReset = none ∧ s.faults.x ≠ none ∧ s.levels.closed = true ∧
      s.levels.present = true ∧ s.levels.ribbonEnd = false ∧ s.levels.tapeEnd = false ∧ s.selfTest = none ∧
      s.power.entering = none ∧ s.power.startUp = none ∧ (s.hammer.state = .on ∨ s.hammer.state = .rest) ∧
      OrdersOk s.seq ∧ s.executing = none ∧ (s.wheel.state = .unknown ∨ s.wheel.state = .off)) := by decide

theorem witness_resumeRequest_6 :
    (∀ s ∈ [faulted .wheelMismatch running], s.hears ∧ s.power.state ≠ .starting ∧ s.power.softReset = none ∧
      s.faults.x ≠ none ∧ s.levels.closed = true ∧ s.levels.present = true ∧ s.levels.ribbonEnd = false ∧
      s.levels.tapeEnd = false ∧ s.selfTest = none ∧ s.power.entering = none ∧ s.power.startUp = none ∧ s.quiet ∧
      OrdersOk s.seq ∧ s.executing = none ∧ s.faults.x.map (·.kind) = some .wheelMismatch) := by decide

theorem witness_resumeRequest_7 :
    (∀ s ∈ [levels (fun l => { l with closed := false }) (faulted .coverOpen running)], s.hears ∧
      s.power.state ≠ .starting ∧ s.power.softReset = none ∧ s.levels.closed = false) := by decide

theorem witness_flushRequest :
    running.hears ∧
    running.seq.state ≠ .stopped ∧
    running.selfTest = none ∧
    running.power.wake = none ∧
    running.power.state = .run ∧
    running.power.entering = none ∧
    running.power.startUp = none ∧
    running.power.softReset = none ∧
    State.reset.hears ∧
    State.reset.power.state = .starting ∧
    (resting .standby running).power.state ≠ .run ∧
    (resting .standby running).hears ∧
    (queued [orderOf 0 .move] running).executing = none ∧
    (queued [orderOf 0 .move] running).seq.queue ≠ [] ∧
    (queued [orderOf 0 .move] running).comp.line.all (fun c => !c.unreleased) = true ∧
    1 = (([{ orderOf 0 .move with group := 3 }] : List Order).filter (fun o => o.group = 3)).length := by decide

theorem witness_flushRequest_2 :
    (∀ s ∈ [seq (fun q => { q with groups := [{ id := 3, kind := .line, remaining := 1 }] }) (queued [{ orderOf 0 .move with group := 3 }] running)], s.hears ∧
      s.power.state = .run ∧ s.seq.state ≠ .stopped ∧ s.selfTest = none ∧ s.power.wake = none ∧
      s.power.entering = none ∧ s.power.startUp = none ∧ s.power.softReset = none ∧ NumbersOk s.seq ∧
      s.executing = none ∧ s.seq.queue ≠ [] ∧ (∀ c ∈ s.comp.line, c.unreleased = false) ∧
      ((s.seq.queue ++ s.seq.stage).filter (fun o => o.group = 3)).length = 1) ∧
    (∀ s ∈ [resting .standby running], s.hears ∧ s.power.state ≠ .run ∧ s.seq.state ≠ .stopped ∧
      s.selfTest = none ∧ s.power.wake = none) := by decide

theorem witness_restRequests :
    running.hears ∧
    running.power.entering = none ∧
    State.reset.hears ∧
    State.reset.power.state = .starting ∧
    running.restful = true ∧
    running.lift.state = .held .view ∧
    running.power.state = .run ∧
    (keyed 0x61 running).restful = false ∧
    running.quiet ∧
    (lift (fun l => { l with state := .held .print }) running).restful = true ∧
    (resting .standby running).hears ∧
    (resting .sleep running).hears ∧
    running.power.wake = none ∧
    running.power.softReset = none ∧
    (power (fun p => { p with state := .sleep, wake := some ⟨.running, .running, 120, []⟩ }) running).power.wake ≠ none ∧
    (∀ s ∈ [lift (fun l => { l with state := .held .print }) running], s.hears ∧ s.power.entering = none ∧
      s.power.state = .run ∧ s.restful = true ∧ s.quiet ∧ s.lift.state = .held .print) := by decide

theorem witness_restRequests_2 :
    (∀ s ∈ [keyed 0x61 running], s.hears ∧ s.power.entering = none ∧ s.power.state = .run ∧ s.restful = false) ∧
    (∀ s ∈ [power (fun p => { p with state := .sleep, wake := some ⟨.running, .running, 120, []⟩ }) running], s.hears ∧
      s.power.entering = none ∧ s.power.state = .sleep ∧ s.power.wake ≠ none) := by decide

theorem witness_offAndWake :
    running.hears ∧
    State.reset.hears ∧
    State.reset.power.state = .starting ∧
    running.power.state ≠ .starting ∧
    running.power.wake = none ∧
    running.power.softReset = none ∧
    running.comp.keys = [] ∧
    running.seq.queue = [] ∧
    running.seq.stageState = .empty ∧
    running.faults.x = none ∧
    running.faults.p = none ∧
    running.selfTest = none ∧
    running.quiet ∧
    running.lift.state = .held .view ∧
    (power (fun p => { p with deepOff := some .replying }) (link (fun l => { l with tx := some ⟨⟨0x59, [0]⟩, true⟩ }) running)).link.tx
  = some ⟨⟨0x59, [0]⟩, true⟩ ∧
    (power (fun p => { p with deepOff := some .replying }) running).power.deepOff = some .replying ∧
    running.power.wakeAfterOff = false ∧
    (lift (fun l => { l with state := .held .print }) running).lift.state = .held .print ∧
    (resting .standby running).hears ∧
    (resting .deepOff running).link.replies.length < 8 ∧
    (platen (fun p => { p with knobSeen := true }) running).platen.knobSeen = true := by decide

theorem witness_offAndWake_2 :
    (∀ s ∈ [power (fun p => { p with deepOff := some .replying }) (link (fun l => { l with tx := some ⟨⟨0x59, [0]⟩, true⟩ }) running)], s.link.tx = some ⟨⟨0x59, [0]⟩, true⟩ ∧
      s.power.deepOff = some .replying ∧ s.power.wakeAfterOff = false ∧ s.power.state = .run ∧
      s.lift.state = .held .view) ∧
    (∀ s ∈ [lift (fun l => { l with state := .held .print }) (power (fun p => { p with deepOff := some .replying }) (link (fun l => { l with tx := some ⟨⟨0x59, [0]⟩, true⟩ }) running))], s.link.tx = some ⟨⟨0x59, [0]⟩, true⟩ ∧
      s.power.deepOff = some .replying ∧ s.power.state = .run ∧ s.quiet ∧ s.lift.state = .held .print) ∧
    (∀ s ∈ [platen (fun p => { p with knobSeen := true }) (resting .standby running)], s.hears ∧
      s.power.state = .standby ∧ s.power.wake = none ∧ s.power.softReset = none ∧ s.platen.knobSeen = true) := by decide

theorem witness_resetRequest :
    running.hears ∧
    running.power.state ≠ .starting ∧
    State.reset.hears ∧
    State.reset.power.state = .starting ∧
    running.hammer.state ≠ .on ∧
    running.hammer.state ≠ .rest ∧
    running.power.state = .run := by decide

theorem witness_paperRequests :
    running.hears ∧
    State.reset.hears ∧
    State.reset.power.state = .starting ∧
    (resting .standby running).hears ∧
    running.power.state = .run ∧
    running.seq.stageState = .empty ∧
    ¬ 32 ≤ running.seq.queue.length ∧
    running.faults.x = none ∧
    running.faults.p = none ∧
    (∀ c ∈ running.comp.line, c.origin ≠ .unreleased) ∧
    NumbersOk running.seq ∧
    running.seq.stage = [] ∧
    (faulted .paperOut running).hears ∧
    (faulted .paperOut running).faults.x ≠ none := by decide

theorem witness_printableKeys :
    (keyed 0x61 running).composes ∧
    (keyed 0x61 running).comp.keys = [⟨0x61, false, false⟩] ∧
    (∀ c ∈ [(0x21 : Byte), 0x7F], 0x21 ≤ c.toNat ∧ c.toNat ≤ 0x7F) ∧
    ¬ (keyed 0x61 (resting .standby running)).composes ∧
    running.set.mode = .direct ∧
    lookGlyph running.slots (some 9) 0x61 = .noWheel ∧
    lookGlyph running.slots (some 7) 0x49 = .absent ∧
    lookGlyph running.slots (some 7) 0x61 = .found 64 5 1 slotSeven ∧
    120 + 12 ≤ running.set.right ∧
    (∀ x ∈ [888], x + 12 ≤ running.set.right) ∧
    ¬ 889 + 12 ≤ running.set.right ∧
    running.comp.line.length < 200 ∧
    running.seq.stageState = .empty ∧
    running.takesOrders 1 ∧
    NumbersOk running.seq ∧
    (∀ s ∈ [comp (fun c => { c with cursor := 889 }) (keyed 0x61 running)], s.composes ∧ s.set.mode = .direct ∧
      ¬ (s.comp.cursor + 12 ≤ s.set.right ∨ s.comp.marginRelease = true)) ∧
    (∀ s ∈ [comp (fun c => { c with wheel := some 9 }) (keyed 0x61 running)], s.composes ∧ s.set.mode = .direct ∧
      lookGlyph s.slots s.comp.wheel 0x61 = .noWheel) := by decide

theorem witness_printableKeys_2 :
    (∀ s ∈ [seq (fun q => { q with stageState := .filling }) (keyed 0x61 running)], s.composes ∧
      s.set.mode = .direct ∧ s.seq.stageState ≠ .empty) := by decide

theorem witness_spaceBackspaceTab :
    (∀ c ∈ [(0x20 : Byte), 0x03, 0x04], (keyed c running).composes) ∧
    readySlot running.slots running.comp.wheel = some slotSeven ∧
    running.set.mode = .direct ∧
    running.comp.cursor + 12 ≤ running.set.right ∧
    running.comp.line.length < 200 ∧
    running.takesOrders 1 ∧
    NumbersOk running.seq ∧
    slotSeven.underlinePetal ≠ none ∧
    ({ slotSeven with underline := none } : WheelSlot).underlinePetal = none ∧
    running.comp.cursor ≤ running.set.left ∧
    (comp (fun c => { c with cursor := 121 }) running).comp.cursor > running.set.left ∧
    ((([cellAt 120 .space (.queued 0)]).filter fun d => d.start < 132).getLast? = some (cellAt 120 .space (.queued 0))) ∧
    (∀ c ∈ running.comp.line, running.comp.cursor ≤ c.start) ∧
    (keyed 0x04 (opened running)).composes ∧
    (∃ c ∈ (opened running).comp.line, c.origin = .unreleased) ∧
    running.set.right ≤ (comp (fun c => { c with cursor := 900 }) running).comp.cursor ∧
    running.comp.cursor < running.set.right ∧
    running.set.tabs.Pairwise (· < ·) ∧
    (∀ o ∈ running.seq.queue, o.kind.name ≠ .lift) := by decide

theorem witness_spaceBackspaceTab_2 :
    (∀ s ∈ [keyed 0x03 (comp (fun c => { c with cursor := 132, line := [cellAt 120 .space (.queued 0)] }) running)], s.composes ∧
      s.set.left < s.comp.cursor ∧ s.takesOrders 1 ∧ NumbersOk s.seq ∧ (∀ c ∈ s.comp.line, c.origin ≠ .unreleased) ∧
      (s.comp.line.filter fun d => d.start < s.comp.cursor).getLast? = some (cellAt 120 .space (.queued 0))) ∧
    (∀ s ∈ [keyed 0x04 (comp (fun c => { c with cursor := 900 }) running)], s.composes ∧
      s.set.right ≤ s.comp.cursor ∧ ∀ c ∈ s.comp.line, c.origin ≠ .unreleased) := by decide

theorem witness_lineAdvanceKeys_return :
    (keyed 0x01 running).composes ∧
    (keyed 0x02 running).composes ∧
    running.takesOrders 1 ∧
    NumbersOk running.seq ∧
    (∀ c ∈ running.comp.line, c.origin ≠ .unreleased) ∧
    (keyed 0x01 running).comp.keys = [⟨0x01, false, false⟩] ∧
    (∀ s ∈ [keyed 0x01 running], s.composes ∧ s.takesOrders 1 ∧ NumbersOk s.seq ∧
      ∀ c ∈ s.comp.line, c.origin ≠ .unreleased) := by decide

theorem witness_lineRelease :
    (keyed 0x01 (opened running)).composes ∧
    (opened running).seq.stageState = .empty ∧
    (opened running).seq.stage = [] ∧
    (opened running).seq.queue = [] ∧
    (opened running).set.spell ≠ .hold ∧
    (opened running).seq.groups = [] ∧
    (opened running).carriage.state = .idle ∧
    (∃ c ∈ (opened running).comp.line, c.origin = .unreleased) ∧
    ((opened running).lineOrders (finishLine (placeLine (opened running).set true ((opened running).comp.line.filter fun c =>
  c.origin = .unreleased))).1).length ≤ 32 ∧
    (∀ s ∈ [keyed 0x01 (opened running)], s.composes ∧ s.seq.stageState = .empty ∧ s.seq.stage = [] ∧
      s.seq.queue = [] ∧ s.set.spell ≠ .hold ∧ s.seq.groups = [] ∧ s.carriage.state = .idle) := by decide

set_option synthInstance.maxSize 1000 in
set_option maxRecDepth 4000 in
theorem witness_justifiedLineFills :
    (∀ a ∈ [Align.left, .right, .center, .justify], ∀ d ∈ [Distribute.spread, .leading, .trailing, .truncate], ∀ r ∈ [240, 267, 272, 273, 274, 1599],
  ({ distribute := d, align := a, right := r } : Settings).left + 120 ≤ r ∧
      r ≤ 1599) ∧
    (∀ b ∈ [([] : List Cell), [cellAt 120 .space .unreleased]], ∀ l ∈ [[], [cellAt 132 (.glyph 0x61) .unreleased],
    [⟨132, 60, .glyph 0x61, false, false, none, .unreleased, none⟩, cellAt 192 .space .unreleased, ⟨204, 39, .glyph 0x62, false, false, none, .unreleased, none⟩]],
  (∀ c ∈ b ++ b, c.content = .space) ∧
      (∀ c ∈ l.head?, c.content ≠ .space) ∧ ∀ c ∈ l.getLast?, c.content ≠ .space) ∧
    (let l := [⟨132, 60, .glyph 0x61, false, false, none, .unreleased, none⟩, cellAt 192 .space .unreleased, ⟨204, 39, .glyph 0x62, false, false, none, .unreleased, none⟩]
 (l.map (·.width)).sum = 111 ∧
      ((l.filter fun c => c.content = .space).map (·.width)).min? = some 12 ∧
      (267 - 120 - 111) / 1 = 3 * 12 ∧
 3 * 12 < (268 - 120 - 111) / 1 ∧
      (placeLine { align := .justify, right := 267 } false l).flags = {} ∧
 (placeLine { align := .justify, right := 268 } false l).flags = { loose := true }) ∧
    (let l := (List.range 134).map fun i => cellAt (120 + 12 * i) (.glyph 0x61) .unreleased
 120 < (l.map (·.width)).sum ∧
      (l.head?.map (·.content)) = some (.glyph 0x61) ∧
      (finishLine (placeLine { right := 240 } false l)).2.1.length = 11) := by decide

theorem witness_lineAdvanceKeys :
    (∀ c ∈ [(0x05 : Byte), 0x06, 0x07, 0x08, 0x09, 0x0D], (keyed c running).composes) ∧
    (keyed 0x06 (opened running)).composes ∧
    (∃ c ∈ (opened running).comp.line, c.origin = .unreleased) ∧
    (∀ c ∈ running.comp.line, c.origin ≠ .unreleased) ∧
    running.takesOrders 2 ∧
    NumbersOk running.seq ∧
    running.comp.cursor = running.comp.relocateH ∧
    running.comp.vTarget = running.comp.relocateV ∧
    (comp (fun c => { c with relocateH := 121, relocateV := 8 }) running).comp.relocateH ≠ 120 ∧
    (∀ s ∈ [keyed 0x0D (comp (fun c => { c with relocateH := 121, relocateV := 8 }) running)], s.composes ∧
      s.comp.cursor ≠ s.comp.relocateH ∧ s.comp.vTarget ≠ s.comp.relocateV ∧ s.takesOrders 2 ∧ NumbersOk s.seq ∧
      ∀ c ∈ s.comp.line, c.origin ≠ .unreleased) := by decide

theorem witness_correctionKeys :
    (∀ c ∈ [(0x0A : Byte), 0x0B, 0x0C], (keyed c (opened running)).composes) ∧
    (∃ c ∈ (opened running).comp.line, c.origin = .unreleased) ∧
    (keyed 0x0A running).composes ∧
    (∀ c ∈ (opened running).comp.line, c.word = none) ∧
    (∀ c ∈ running.comp.line, c.origin ≠ .unreleased) ∧
    running.seq.stageState = .empty ∧
    running.seq.stage = [] ∧
    (running.comp.line.filter fun c => c.start < running.comp.cursor).getLast? = none ∧
    (([cellAt 120 (.glyph 0x61) (.queued 0)].filter fun c => c.start < 132).getLast? = some (cellAt 120 (.glyph 0x61) (.queued 0))) ∧
    (([cellAt 120 .space (.onPaper none)].filter fun c => c.start < 132).getLast? = some (cellAt 120 .space (.onPaper none))) ∧
    OrdersOk (queued [orderOf 0 (.strike strikeA)] running).seq ∧
    (orderOf 0 (.strike strikeA)).kind.name = .strike ∧
    (orderOf 0 (.strike strikeA)).state ≠ .executing := by decide

theorem witness_correctionKeys_2 :
    (∀ r ∈ running.memory.records, r.vertical = 0 → r.horizontal ≠ 120) := by decide

theorem witness_correctionKeys_3 :
    (∀ s ∈ [keyed 0x0A (comp (fun c => { c with cursor := 132, line := [cellAt 120 (.glyph 0x61) (.queued 0)] }) (queued [orderOf 0 (.strike strikeA)] running))], s.composes ∧
      (∀ c ∈ s.comp.line, c.origin ≠ .unreleased) ∧ s.seq.stageState = .empty ∧ s.seq.stage = [] ∧
      (s.comp.line.filter fun c => c.start < s.comp.cursor).getLast? = some (cellAt 120 (.glyph 0x61) (.queued 0)) ∧
      OrdersOk s.seq ∧ GroupsOk s.seq ∧ s.memory.records = [] ∧ s.seq.queue = [orderOf 0 (.strike strikeA)]) := by decide

theorem witness_correctionKeys_4 :
    (∀ s ∈ [({ keyed 0x0A (comp (fun c => { c with cursor := 132, line := [cellAt 120 (.glyph 0x61) (.onPaper (some 3))] }) running) with memory := { records := [⟨3, 0, 0, 120, some 0x61, some 64, none, 7, 12, 1100, [⟨.glyph, 120, some 64⟩], [.glyph], [], none⟩] } } : State)], s.composes ∧
      (∀ c ∈ s.comp.line, c.origin ≠ .unreleased) ∧ s.seq.stageState = .empty ∧ s.seq.stage = [] ∧ OrdersOk s.seq ∧
      GroupsOk s.seq ∧ s.seq.queue = [] ∧ (∀ r ∈ s.memory.records, r.vertical = s.comp.vTarget ∧
      r.horizontal = 120 ∧ s.comp.wheel = some r.wheel)) := by decide

theorem witness_correctionKeys_5 :
    (∀ s ∈ [keyed 0x0B (comp (fun c => { c with line := c.line.map fun d => if d.start = 144 then { d with word := some 4 } else d }) (opened running))], s.composes ∧
      (s.comp.line.reverse.dropWhile fun c => c.content = .space).reverse = s.comp.line.take 2 ++ [{ cellAt 144 (.glyph 0x62) .unreleased with word := some 4 }] ++ [] ∧
      ∀ c, (s.comp.line.take 2).getLast? = some c → c.word ≠ some 4) := by decide

set_option synthInstance.maxSize 1000 in
set_option maxRecDepth 4000 in
theorem witness_orderStartAndCarriage :
    (queued [{ orderOf 0 .move .prepared with horizontal := 1599 }] running).aside ∧
    (queued [orderOf 0 .move .prepared] running).seq.state = .running ∧
    running.power.state = .run ∧
    running.faults.x = none ∧
    running.faults.p = none ∧
    running.seq.pausePending = false ∧
    OrdersOk (queued [{ orderOf 0 .move .prepared with horizontal := 1599 }] running).seq ∧
    running.quiet ∧
    running.carriage.state = .idle ∧
    running.carriage.position ≠ 1599 ∧
    (queued [orderOf 0 .move] running).executing = none ∧
    (orderOf 0 .move).state = .queued ∧
    (carriage (fun c => { c with state := .moving, target := 120 }) running).carriage.use = .order := by decide

set_option synthInstance.maxSize 1000 in
set_option maxRecDepth 4000 in
theorem witness_orderStartAndCarriage_2 :
    (queued [orderOf 0 .move .executing] running).executing = some (orderOf 0 .move .executing) ∧
    (carriage (fun c => { c with state := .homing, rightwards := true, after := .to 1599 }) running).carriage.after = .to 1599 ∧
    (carriage (fun c => { c with state := .homing, rightwards := true }) running).aside ∧
    0 < running.set.left ∧
    running.set.left ≤ 1599 := by decide

set_option synthInstance.maxSize 1000 in
set_option maxRecDepth 4000 in
theorem witness_orderStartAndCarriage_3 :
    (∀ x ∈ [1599, 1700], ∀ s ∈ [(queued [{ orderOf 0 .move .prepared with horizontal := x }] running)], s.aside ∧
      OrdersOk s.seq ∧ s.seq.queue = [{ orderOf 0 .move .prepared with horizontal := x }] ∧ s.power.state = .run ∧
      s.faults.x = none ∧ s.faults.p = none ∧ s.seq.state = .running ∧ s.seq.pausePending = false  ∧ s.quiet ∧
      s.carriage.state = .idle ∧ s.carriage.position ≠ 1599) := by decide

set_option synthInstance.maxSize 1000 in
set_option maxRecDepth 4000 in
theorem witness_orderStartAndCarriage_4 :
    (∀ x ∈ [1599, 1700], ∀ s ∈ [carriage (fun c => { c with state := .moving, target := 1599 }) (queued [{ orderOf 0 .move .executing with horizontal := x }] running)], s.aside ∧
      OrdersOk s.seq ∧ s.carriage.state = .moving ∧ s.carriage.use = .order ∧
      s.executing = some { orderOf 0 .move .executing with horizontal := x } ∧ s.carriage.target = min 1599 x ∧
      s.faults.x = none ∧ s.faults.p = none ) := by decide

set_option synthInstance.maxSize 1000 in
set_option maxRecDepth 4000 in
theorem witness_orderStartAndCarriage_5 :
    (∀ s ∈ [carriage (fun c => { c with state := .homing, rightwards := true }) running], s.aside ∧
      OrdersOk s.seq ∧ s.carriage.use = .order ∧ s.executing = none ∧ s.carriage.state = .homing ∧
      s.carriage.rightwards = true) := by decide

set_option synthInstance.maxSize 1000 in
set_option maxRecDepth 4000 in
theorem witness_orderStartAndCarriage_6 :
    (∀ s ∈ [carriage (fun c => { c with state := .homing, after := .to 1599 }) running], s.aside ∧
      OrdersOk s.seq ∧ s.carriage.use = .order ∧ s.executing = none ∧ s.carriage.state = .homing ∧
      s.carriage.rightwards = false ∧ s.carriage.after = .to 1599) := by decide

theorem witness_wheelEvents :
    running.aside ∧
    running.executing = none ∧
    running.wheel.state = .settled ∧
    (wheel (fun v => { v with state := .rotating }) running).wheel.state = .rotating ∧
    (wheel (fun v => { v with state := .homing, homing := some ⟨.cover, some 9, .search⟩ }) running).wheel.homing = some ⟨.cover, some 9, .search⟩ ∧
    (wheel (fun v => { v with state := .homing, homing := some ⟨.cover, none, .read 10 []⟩ }) running).aside ∧
    (([] : List Bool) ++ [true]).length < 7 ∧
    (List.replicate 7 false ++ [decide (3 * 10 ≤ 2 * 14)]).foldl (fun n b => 2 * n + (if b then 1 else 0)) 0 = 0 ∧
    (List.replicate 7 true ++ [decide (3 * 10 ≤ 2 * 15)]).foldl (fun n b => 2 * n + (if b then 1 else 0)) 0 = 255 ∧
    (List.replicate 7 false ++ [decide (3 * 10 ≤ 2 * 15)]).foldl (fun n b => 2 * n + (if b then 1 else 0)) 0 = 1 ∧
    (wheel (fun v => { v with state := .homing, homing := some ⟨.cover, some 9, .park 7⟩ }) running).wheel.homing = some ⟨.cover, some 9, .park 7⟩ ∧
    (comp (fun c => { c with wheel := none }) running).comp.wheel = none ∧
    running.wheel.homing = none ∧
    running.levels.closed = true ∧
    running.wheel.recoveryFailed = false ∧
    running.seq.queue = [] ∧
    running.comp.wheel ≠ none ∧
    running.wheel.lostByTest = false ∧
    running.power.state = .run ∧
    running.faults.x = none ∧
    running.faults.p = none := by decide

theorem witness_wheelEvents_2 :
    OrdersOk running.seq := by decide

theorem witness_wheelEvents_3 :
    (∀ s ∈ [wheel (fun v => { v with state := .homing, homing := some ⟨.cover, some 9, .search⟩ }) running], s.aside ∧
      s.executing = none ∧ OrdersOk s.seq ∧ s.wheel.state = .homing ∧
      s.wheel.homing = some ⟨.cover, some 9, .search⟩) := by decide

theorem witness_wheelEvents_4 :
    (∀ s ∈ [wheel (fun v => { v with state := .homing, homing := some ⟨.cover, none, .read 10 (List.replicate 7 false)⟩ }) running], s.aside ∧
      s.executing = none ∧ OrdersOk s.seq ∧ s.wheel.state = .homing ∧
      s.wheel.homing = some ⟨.cover, none, .read 10 (List.replicate 7 false)⟩) := by decide

theorem witness_wheelEvents_5 :
    (∀ s ∈ [wheel (fun v => { v with state := .homing, homing := some ⟨.cover, some 9, .park 7⟩ }) running], s.aside ∧
      s.executing = none ∧ OrdersOk s.seq ∧ s.wheel.state = .homing ∧
      s.wheel.homing = some ⟨.cover, some 9, .park 7⟩) := by decide

theorem witness_wheelEvents_6 :
    (∀ s ∈ [comp (fun c => { c with wheel := none }) running], s.aside ∧ s.executing = none ∧ OrdersOk s.seq ∧
      s.comp.wheel = none ∧ s.power.state = .run ∧ s.faults.x = none ∧ s.faults.p = none ∧ s.wheel.homing = none ∧
      s.seq.queue = [] ∧ s.levels.closed = true ∧ s.wheel.recoveryFailed = false) := by decide

theorem witness_platenLiftHammer :
    running.aside ∧
    running.executing = none ∧
    (∀ n ∈ [5, 72], 4 < (platen (fun p => { p with state := .feeding, remaining := n }) running).platen.remaining) ∧
    (∀ n ∈ [0, 4], (platen (fun p => { p with state := .feeding, remaining := n }) running).platen.remaining ≤ 4) ∧
    running.platen.state = .idle ∧
    (platen (fun p => { p with state := .off }) running).platen.state = .off ∧
    (queued [{ orderOf 0 (.feed 4) .executing with phase := .feeding }] running).executing = some { orderOf 0 (.feed 4) .executing with phase := .feeding } ∧
    OrdersOk (queued [{ orderOf 0 (.feed 4) .executing with phase := .feeding }] running).seq ∧
    running.seq.liftToView = false ∧
    running.lift.state ≠ .moving ∧
    State.reset.seq.state ≠ .running ∧
    State.reset.seq.state ≠ .idle ∧
    (seq (fun q => { q with state := .paused }) (lift (fun l => { l with state := .moving, target := .print, use := .viewTimer }) running)).lift.target = .print := by decide

theorem witness_platenLiftHammer_2 :
    (∀ o ∈ running.seq.queue, o.held = none ∧ o.state = .queued) ∧
    (seq (fun q => { q with state := .paused }) running).aside ∧
    (lift (fun l => { l with state := .moving, viaView := true, target := .print }) running).lift.viaView = true ∧
    (hammer (fun h => { h with state := .rest }) running).hammer.state = .rest ∧
    running.faults.x = none ∧
    running.faults.p = none ∧
    ({ running with pins := { running.pins with hammerHome := false } } : State).pins.hammerHome = false ∧
    (hammer (fun h => { h with state := .stuck, waitTimer := some 3000 }) running).hammer.waitTimer.isSome = true := by decide

theorem witness_platenLiftHammer_3 :
    (∀ s ∈ [platen (fun p => { p with state := .feeding, remaining := 4 }) (queued [{ orderOf 0 (.feed 4) .executing with phase := .feeding }] running)], s.aside ∧
      OrdersOk s.seq ∧ s.platen.state = .feeding ∧ s.platen.remaining ≤ 4 ∧
      s.executing = some { orderOf 0 (.feed 4) .executing with phase := .feeding } ∧ s.faults.x = none ∧
      s.faults.p = none ) := by decide

theorem witness_platenLiftHammer_4 :
    (∀ s ∈ [seq (fun q => { q with state := .paused }) (lift (fun l => { l with state := .moving, target := .print, use := .viewTimer }) running)], s.aside ∧
      OrdersOk s.seq ∧ s.executing = none ∧ s.seq.liftToView = false ∧ s.lift.state = .moving ∧
      s.lift.viaView = false ∧ s.lift.target = .print ∧ s.lift.use = .viewTimer ∧ s.faults.x = none ∧
      s.faults.p = none ∧ s.seq.queue = [] ∧ s.seq.state ≠ .running ∧ s.seq.state ≠ .idle) := by decide

theorem witness_platenLiftHammer_5 :
    (∀ s ∈ [({ hammer (fun h => { h with state := .rest }) (queued [orderOf 0 (.strike strikeA) .executing] running) with pins := { running.pins with hammerHome := false } } : State)], s.aside ∧
      OrdersOk s.seq ∧ s.executing = some (orderOf 0 (.strike strikeA) .executing) ∧ s.faults.x = none ∧
      s.faults.p = none ∧ s.hammer.state = .rest ∧ s.pins.hammerHome = false) := by decide

theorem witness_platenLiftHammer_6 :
    (∀ s ∈ [hammer (fun h => { h with state := .stuck, waitTimer := some 3000 }) (queued [orderOf 0 (.strike strikeA) .executing] running)], s.aside ∧
      OrdersOk s.seq ∧ s.executing = some (orderOf 0 (.strike strikeA) .executing) ∧ s.faults.x = none ∧
      s.faults.p = none ∧ s.hammer.state = .stuck ∧ s.hammer.waitTimer.isSome = true) := by decide

theorem witness_sensorEvents :
    (resting .deepOff running).power.state = .deepOff ∧
    running.aside ∧
    OrdersOk running.seq ∧
    OrdersOk (resting .deepOff running).seq := by decide

theorem witness_sensorEvents_2 :
    running.executing = none ∧
    running.levels.present ≠ false ∧
    running.levels.engaged = true ∧
    running.levels.engaged ≠ false ∧
    MemoryOk running.memory ∧
    (∀ c ∈ running.comp.line, c.origin = .onPaper none) ∧
    running.power.state = .run ∧
    running.levels.closed = true ∧
    (carriage (fun c => { c with state := .moving }) running).carriage.state = .moving ∧
    running.carriage.state ≠ .moving ∧
    (platen (fun p => { p with state := .feeding }) running).platen.state = .feeding ∧
    running.platen.state ≠ .feeding ∧
    (queued [{ orderOf 0 (.wheelChange 254) .executing with phase := .awaitOpen }] running).executing = some { orderOf 0 (.wheelChange 254) .executing with phase := .awaitOpen } := by decide

theorem witness_sensorEvents_3 :
    OrdersOk (queued [{ orderOf 0 (.wheelChange 254) .executing with phase := .awaitOpen }] running).seq ∧
    (orderOf 0 .move .executing).phase ≠ .awaitOpen ∧
    (levels (fun l => { l with closed := false }) running).levels.closed = false ∧
    running.wheel.homing = none ∧
    running.comp.wheel ≠ none ∧
    running.wheel.lostByTest = false ∧
    running.faults.x = none ∧
    running.faults.p = none ∧
    (running.resting ∧ running.link.tx ≠ none ∧ running.link.notices = []) := by decide

theorem witness_sensorEvents_4 :
    (∀ s ∈ [queued [{ orderOf 0 (.wheelChange 254) .executing with phase := .awaitOpen }] running], s.aside ∧
      OrdersOk s.seq ∧ s.power.state = .run ∧ s.levels.closed = true ∧
      s.executing = some { orderOf 0 (.wheelChange 254) .executing with phase := .awaitOpen } ) := by decide

theorem witness_sensorEvents_5 :
    (∀ s ∈ [levels (fun l => { l with closed := false }) (queued [{ orderOf 0 (.wheelChange 254) .executing with phase := .awaitClose }] running)], s.aside ∧
      OrdersOk s.seq ∧ s.power.state = .run ∧ s.levels.closed = false ∧ s.faults.x = none ∧ s.faults.p = none ∧
      s.wheel.homing = none ∧ s.comp.wheel ≠ none ∧ s.wheel.lostByTest = false ∧
      s.executing = some { orderOf 0 (.wheelChange 254) .executing with phase := .awaitClose } ) := by decide

theorem witness_sensorEvents_6 :
    (∀ s ∈ [levels (fun l => { l with closed := false }) running], s.aside ∧ OrdersOk s.seq ∧
      s.power.state = .run ∧ s.levels.closed = false ∧ s.faults.x = none ∧ s.faults.p = none ∧
      s.wheel.homing = none ∧ s.comp.wheel ≠ none ∧ s.wheel.lostByTest = false ∧ s.executing = none) := by decide

theorem witness_flashReads :
    running.port.current = none ∧
    State.reset.port.current = some ⟨0, 15, .startHeader⟩ ∧
    State.reset.power.state = .starting ∧
    State.reset.power.startUp = some .header ∧
    State.reset.executing = none ∧
    State.reset.selfTest = none ∧
    State.reset.seq.recovery = {} ∧
    State.reset.power.softReset = none ∧
    State.reset.power.entering = none ∧
    State.reset.power.deepOff = none ∧
    State.reset.port.waiting = [] ∧
    State.reset.slots.length = 4 ∧
    State.reset.levels.closed = true ∧
    (headerOf [0x4A, 0x57, 1, 4, 0x20, 0, 0, 0, 5, 0, 0, 15, 0, 8, 0]).isSome = true ∧
    (headerOf [0x4A, 0x57, 2, 4, 0x20, 0, 0, 0, 5, 0, 0, 15, 0, 8, 0]).isSome = false ∧
    (∀ k ∈ [0, 2, 3], k + 1 < 4 ∨ 4 ≤ k + 1) ∧
    (spell (fun p => { p with tableCount := 4 }) (power (fun p => { p with startUp := some .tables }) State.reset)).spell.tableCount = 4 ∧
    running.aside ∧
    running.spell.lookups = [] ∧
    SpellOk (spell (fun p => { p with lookups := [⟨some 5, 2, [1, 2], .index⟩], words := [⟨5, [1, 2], false, .pending, 2, 0, 120⟩] }) running).spell ∧
    (∀ n ∈ [(1 : Byte), 255], n.toNat ≠ 0) ∧
    scanBucket [1, 2] 3 [2, 1, 2] = .found := by decide

theorem witness_flashReads_2 :
    scanBucket [1, 2] 3 [2, 1, 3] = .missing ∧
    (∀ s ∈ [({ State.reset with port := { current := some ⟨0, 292, .table 3⟩ }, power := { startUp := some .tables }, spell := { tableCount := 4 } } : State)], s.port.current = some ⟨0, 292, .table 3⟩ ∧
      s.power.state = .starting ∧ s.power.startUp = some .tables ∧ s.executing = none ∧ s.selfTest = none ∧
      s.seq.recovery = {} ∧ s.power.softReset = none ∧ s.power.entering = none ∧ s.power.deepOff = none ∧
      s.port.waiting = [] ∧ s.spell.tableCount ≤ 3 + 1) ∧
    (∀ s ∈ [({ running with port := { current := some ⟨0, 15, .dictHeader⟩ } } : State)], s.aside ∧
      s.executing = none ∧ s.port.current = some ⟨0, 15, .dictHeader⟩ ∧ s.spell.lookups = []) ∧
    (∀ s ∈ [({ spell (fun p => { p with lookups := [⟨some 5, 2, [1, 2], .index⟩], words := [⟨5, [1, 2], false, .pending, 2, 0, 120⟩] }) running with port := { current := some ⟨0, 4, .index⟩ } } : State)], s.aside ∧
      s.executing = none ∧ SpellOk s.spell ∧ s.port.current = some ⟨0, 4, .index⟩ ∧
      s.spell.lookups = [⟨some 5, 2, [1, 2], .index⟩] ∧ s.spell.words = [⟨5, [1, 2], false, .pending, 2, 0, 120⟩]) := by decide

theorem witness_flashReads_3 :
    (∀ s ∈ [({ spell (fun p => { p with lookups := [⟨some 5, 2, [1, 2], .bucket⟩], words := [⟨5, [1, 2], false, .pending, 2, 0, 120⟩] }) running with port := { current := some ⟨0, 3, .bucket⟩ } } : State)], s.aside ∧
      s.executing = none ∧ SpellOk s.spell ∧ s.port.current = some ⟨0, 3, .bucket⟩ ∧
      s.spell.lookups = [⟨some 5, 2, [1, 2], .bucket⟩]) := by decide

theorem witness_timerEvents :
    running.aside ∧
    OrdersOk running.seq ∧
    running.executing = none ∧
    running.seq.viewTimer = none ∧
    (seq (fun q => { q with viewTimer := some 5 }) running).seq.viewTimer.isSome = true ∧
    running.power.state = .run ∧
    running.quiet ∧
    running.comp.keys = [] ∧
    running.seq.queue = [] ∧
    running.seq.stageState = .empty ∧
    running.seq.state = .idle ∧
    running.seq.stage = [] ∧
    running.faults.x = none := by decide

theorem witness_timerEvents_2 :
    running.faults.p = none ∧
    running.wheel.homing = none ∧
    running.power.conditions = true ∧
    running.lift.state = .held .view ∧
    (lift (fun l => { l with state := .held .print }) running).lift.state = .held .print ∧
    (power (fun p => { p with timer := some 1 }) running).power.timer.isSome = true ∧
    running.power.timer = none ∧
    (∀ r ∈ [Rest.standby, .sleep], (power (fun p => { p with pendingEntry := some r }) running).power.pendingEntry = some r) ∧
    running.power.pendingEntry = none ∧
    running.display.blinkTimer = none ∧
    running.display.holdTimer = none ∧
    running.display.overrideTimer = none ∧
    ({ running with display := { blinkTimer := some 1, holdTimer := some 1, overrideTimer := some 1 } } : State).display.blinkTimer.isSome = true := by decide

theorem witness_timerEvents_3 :
    (∀ s ∈ [power (fun p => { p with timer := some 1, pendingEntry := some .sleep }) (lift (fun l => { l with state := .held .print }) running)], s.aside ∧
      OrdersOk s.seq ∧ s.executing = none ∧ s.power.state = .run ∧ s.comp.keys = [] ∧ s.seq.queue = [] ∧
      s.seq.stageState = .empty ∧ s.seq.state = .idle ∧ s.faults.x = none ∧ s.faults.p = none ∧
      s.wheel.homing = none ∧ s.power.conditions = true ∧ s.power.timer.isSome = true ∧
      s.power.pendingEntry = some .sleep ∧ s.lift.state = .held .print ∧ s.quiet ∧ s.seq.stage = []) := by decide

theorem witness_timerEvents_4 :
    (∀ s ∈ [seq (fun q => { q with viewTimer := some 5 }) (lift (fun l => { l with state := .held .print }) running)], s.aside ∧
      OrdersOk s.seq ∧ s.executing = none ∧ s.seq.viewTimer.isSome = true ∧ s.power.state = .run ∧ s.quiet ∧
      s.lift.state = .held .print) := by decide

theorem witness_hammerFires :
    (queued [orderOf 0 (.strike strikeA) .prepared] running).aside ∧
    running.power.state = .run ∧
    running.faults.x = none ∧
    running.faults.p = none ∧
    (queued [orderOf 0 (.strike strikeA) .prepared] running).seq.state = .running ∧
    running.seq.pausePending = false ∧
    OrdersOk (queued [orderOf 0 (.strike strikeA) .prepared] running).seq ∧
    (orderOf 0 (.strike strikeA) .prepared).fired = [] ∧
    strikeA.fires = [⟨.glyph, 120, some 64⟩] ∧
    120 ≤ 1599 ∧
    running.carriage.state = .idle ∧
    running.wheel.state = .settled ∧
    running.carriage.position = 120 := by decide

theorem witness_hammerFires_2 :
    running.wheel.petal ≠ some 64 ∧
    running.quiet ∧
    running.lift.state ≠ .moving ∧
    running.seq.liftToView = false ∧
    (wheel (fun v => { v with petal := some 64 }) running).wheel.petal = some 64 ∧
    (lift (fun l => { l with state := .held .print }) running).lift.state = .held .print ∧
    running.platen.state ≠ .feeding ∧
    running.levels.closed = true ∧
    running.hammer.state = .ready ∧
    running.memory.records.length < 512 ∧
    MemoryOk running.memory ∧
    (hammer (fun h => { h with state := .stuck }) running).hammer.waitTimer = none := by decide

theorem witness_hammerFires_3 :
    (∀ s ∈ [queued [orderOf 0 (.strike strikeA) .prepared] running], s.aside ∧ s.sequences  ∧
      s.seq.queue = [orderOf 0 (.strike strikeA) .prepared] ∧ s.carriage.state = .idle ∧ s.wheel.state = .settled ∧
      s.wheel.petal ≠ some 64 ∧ s.quiet ∧ s.lift.state ≠ .moving ∧ s.seq.liftToView = false) := by decide

theorem witness_hammerFires_4 :
    (∀ s ∈ [queued [orderOf 0 (.strike strikeA) .prepared] (wheel (fun v => { v with petal := some 64 }) (lift (fun l => { l with state := .held .print }) running))], s.aside ∧
      s.sequences  ∧ s.seq.queue = [orderOf 0 (.strike strikeA) .prepared] ∧ s.carriage.state = .idle ∧
      s.wheel.state = .settled ∧ s.carriage.position = 120 ∧ s.wheel.petal = some 64 ∧ s.lift.state = .held .print ∧
      s.platen.state ≠ .feeding ∧ s.levels.closed = true ∧ s.hammer.state = .ready ∧ s.memory.records.length < 512 ∧
      MemoryOk s.memory) := by decide

theorem witness_hammerFires_5 :
    (∀ s ∈ [queued [orderOf 0 (.strike strikeA) .prepared] (hammer (fun h => { h with state := .stuck }) (wheel (fun v => { v with petal := some 64 }) (lift (fun l => { l with state := .held .print }) running)))], s.aside ∧
      s.sequences  ∧ s.seq.queue = [orderOf 0 (.strike strikeA) .prepared] ∧ s.carriage.state = .idle ∧
      s.wheel.state = .settled ∧ s.wheel.petal = some 64 ∧ s.lift.state = .held .print ∧ s.hammer.state = .stuck ∧
      s.hammer.waitTimer = none) := by decide

theorem witness_refused_settled :
    running.settle = running.toEngine ∧
    running.hears ∧
    running.seq.stageState ≠ .held ∧
    (∀ w ∈ running.spell.words, w.id = (5 : Byte) → w.state ≠ .suspect) ∧
    (opened running).settle = (opened running).toEngine ∧
    (opened running).hears := ⟨rfl, by decide, by decide, by decide, rfl, by decide⟩

theorem witness_releaseRequest_stage :
    ∀ s ∈ [seq (fun q => { q with nextOrder := 9, stageState := .held, stage := [{ orderOf 0 .move with group := 3 }], groups := [{ id := 3, kind := .line, remaining := 1 }] }) running],
  s.hears ∧
      s.seq.stageState = .held ∧ OrdersOk s.seq ∧ ∀ o ∈ s.seq.queue ++ s.seq.stage, o.kind.name ≠ .lift := by decide

theorem witness_restoreContext_forms :
    (List.replicate 56 (0 : Byte)).length ≤ 56 ∧
    3 ≤ 3 ∧
    (∀ x ∈ List.replicate 16 2047, x < 2048) ∧
    (List.replicate 16 2047).length ≤ 16 ∧
    (List.replicate 23 (0 : Byte)).length = 23 ∧
    ([] : List Byte).length = 0 ∧
    [(0 : Byte)] ≠ [] ∧
    16 < (17 : Byte).toNat ∧
    (List.replicate 12 (0 : Byte)).length ≠ 11 + (11 * 0 + 7) / 8 ∧
    (6 : Byte).toNat / 2 % 4 = 3 ∧
    4 < (0xA0 : Byte).toNat / 32 ∧
    (1 : Byte).toNat % 8 < 2 ∧
    6 < (7 : Byte).toNat % 8 ∧
    (∀ s ∈ [running, resting .sleep running, platen (fun p => { p with knobSeen := true }) (resting .standby running)], s.hears ∧
      s.power.state ≠ .starting ∧ s.power.softReset = none ∧ s.comp.keys = [] ∧ s.seq.queue = [] ∧
      s.seq.stageState = .empty ∧ s.comp.line = [] ∧ s.faults.x = none ∧ s.faults.p = none) := by decide

theorem witness_pauseAndContinue_prepared :
    ∀ s ∈ [queued [orderOf 0 .move .prepared] running], s.hears ∧ NumbersOk s.seq ∧
      s.seq.state = .running ∧
  s.seq.pausePending = false ∧ s.faults.p = none ∧
      s.seq.queue = [orderOf 0 .move .prepared] ∧ s.lasts (orderOf 0 .move .prepared) ∧
      s.failure (orderOf 0 .move .prepared) = none := by decide

set_option synthInstance.maxSize 1000 in
set_option maxRecDepth 4000 in
theorem witness_spaceBackspaceTab_drops :
    (∀ s ∈ [comp (fun c => { c with wheel := some 9 }) (keyed 0x20 running)], s.composes ∧ s.set.mode = .direct ∧
      (readySlot s.slots s.comp.wheel).isNone = true) ∧
    (∀ s ∈ [({ comp (fun c => { c with keys := [⟨0x20, false, true⟩] }) running with slots := [{ slotSeven with underline := none }] } : State)], s.composes ∧
      s.set.mode = .direct ∧ (readySlot s.slots s.comp.wheel).isSome = true ∧
      (readySlot s.slots s.comp.wheel).bind (·.underlinePetal) = none) ∧
    (∀ s ∈ [comp (fun c => { c with cursor := 889 }) (keyed 0x20 running)], s.composes ∧ s.set.mode = .direct ∧
      ¬ (s.comp.cursor + 12 ≤ s.set.right ∨ s.comp.marginRelease = true)) ∧
    (∀ s ∈ [comp (fun c => { c with cursor := 600, line := (List.range 200).map fun i => cellAt i (.glyph 0x61) (.onPaper none) }) (keyed 0x20 running)], s.composes ∧
      s.set.mode = .direct ∧ s.comp.cursor + 12 ≤ s.set.right ∧ 200 ≤ s.comp.line.length ∧
      ∀ c ∈ s.comp.line, c.start ≠ s.comp.cursor) ∧
    (∀ k ∈ [(0x20 : Byte), 0x03, 0x04], ∀ s ∈ [seq (fun q => { q with stageState := .filling }) (comp (fun c => { c with cursor := 132 }) (keyed k running))], s.composes ∧
      s.seq.stageState ≠ .empty ∧ s.set.left < s.comp.cursor ∧ s.comp.cursor + 12 ≤ s.set.right ∧
      ∀ c ∈ s.comp.line, c.origin ≠ .unreleased) := by decide

set_option synthInstance.maxSize 1000 in
set_option maxRecDepth 4000 in
theorem witness_spaceBackspaceTab_drops_2 :
    (∀ k ∈ [(0x20 : Byte), 0x03, 0x04], ∀ s ∈ [queued ((List.range 32).map fun n => orderOf n (.feed 4)) (comp (fun c => { c with cursor := 132 }) (keyed k running))], s.composes ∧
      s.seq.queue.length = 32 ∧ s.seq.queue.getLast?.map (·.kind) = some (.feed 4) ∧ s.set.left < s.comp.cursor ∧
      s.comp.cursor + 12 ≤ s.set.right ∧ ∀ c ∈ s.comp.line, c.origin ≠ .unreleased) := by decide

set_option synthInstance.maxSize 1000 in
set_option maxRecDepth 4000 in
theorem witness_lineModeKeys :
    (∀ s ∈ [keyed 0x61 (set (fun t => { t with mode := .line }) running), keyed 0x61 (opened running), keyed 0x20 (opened running)], s.composes ∧
      s.set.mode = .line ∧ s.comp.cursor + 12 ≤ s.set.right ∧ s.comp.line.length < 200 ∧
      ∀ c ∈ s.comp.line, c.start < s.comp.cursor) ∧
    lookGlyph running.slots (some 7) 0x61 = .found 64 5 1 slotSeven ∧
    lookGlyph running.slots (some 7) 0x49 = .absent ∧
    lookGlyph running.slots (some 9) 0x61 = .noWheel ∧
    glyphWidth .auto slotSeven 5 = 12 ∧
    spaceWidth .auto slotSeven = 12 ∧
    readySlot running.slots (some 7) = some slotSeven ∧
    readySlot running.slots (some 9) = none ∧
    slotSeven.underlinePetal ≠ none ∧
    ({ slotSeven with underline := none } : WheelSlot).underlinePetal = none ∧
    (∀ s ∈ [comp (fun c => { c with cursor := 1588, marginRelease := true }) (keyed 0x61 (opened running))], s.composes ∧
      s.set.mode = .line ∧ s.comp.marginRelease = true ∧ 1599 < s.comp.cursor + 12 ∧ s.comp.line.length ≤ 200 ∧
      ∀ c ∈ s.comp.line, c.start < s.comp.cursor) := by decide

set_option synthInstance.maxSize 1000 in
set_option maxRecDepth 4000 in
theorem witness_lineModeKeys_2 :
    (∀ s ∈ [comp (fun c => { c with cursor := 600, line := (List.range 200).map fun i => cellAt i (.glyph 0x61) .unreleased }) (keyed 0x61 (opened running))], s.composes ∧
      s.set.mode = .line ∧ s.comp.cursor + 12 ≤ s.set.right ∧ s.comp.line.length = 200 ∧
      ∀ c ∈ s.comp.line, c.start < s.comp.cursor) ∧
    (∀ s ∈ [comp (fun c => { c with cursor := 889, line := [cellAt 120 .space .unreleased, cellAt 877 (.glyph 0x61) .unreleased] }) (keyed 0x61 (opened running))], s.composes ∧
      s.set.mode = .line ∧ ¬ (s.comp.cursor + 12 ≤ s.set.right ∨ s.comp.marginRelease = true) ∧
      (∀ c ∈ s.comp.line, c.start < s.comp.cursor) ∧
      ∀ c ∈ s.comp.line.dropWhile (fun c => c.content = .space), c.content ≠ .space) ∧
    (∀ s ∈ [comp (fun c => { c with cursor := 889, line := [cellAt 120 .space .unreleased] }) (keyed 0x20 (opened running))], s.composes ∧
      s.set.mode = .line ∧ ¬ (s.comp.cursor + 12 ≤ s.set.right ∨ s.comp.marginRelease = true) ∧
      (s.comp.line.reverse.dropWhile fun c => c.content = .space) = []) ∧
    (∀ s ∈ [keyed 0x03 (opened running)], s.composes ∧ (s.comp.line.any fun c => c.origin = .unreleased) = true ∧
      s.comp.line.getLast? = some (cellAt 144 (.glyph 0x62) .unreleased)) := by decide

set_option synthInstance.maxSize 1000 in
set_option maxRecDepth 4000 in
theorem witness_lineModeKeys_wraps :
    (∀ k ∈ [(0x69 : Byte), 0x20], ∀ s ∈ [keyed k wrapping], s.composes ∧ s.set.mode = .line ∧
      ¬ (s.comp.cursor + 12 ≤ s.set.right ∨ s.comp.marginRelease = true) ∧ s.seq.stageState = .empty ∧
      s.seq.stage = [] ∧ s.seq.queue = [] ∧ s.seq.groups = [] ∧ s.set.spell ≠ .hold ∧ s.carriage.state = .idle ∧
      (∀ c ∈ s.comp.line, c.start < s.comp.cursor) ∧ s.comp.line.length ≤ 200) ∧
    wrapping.comp.line = wrapping.comp.line.take 5 ++ [cellAt 180 .space .unreleased] ++ wrapping.comp.line.drop 6 ∧
    (wrapping.lineOrders (finishLine (placeLine wrapping.set false (wrapping.comp.line.take 5))).1).length ≤ 32 ∧
    (wrapping.lineOrders (finishLine (placeLine wrapping.set false wrapping.comp.line)).1).length ≤ 32 ∧
    (wrapping.comp.line.take 5).getLast? = some (cellAt 168 (.glyph 0x61) .unreleased) ∧
    (∀ c ∈ wrapping.comp.line.drop 6, c.content ≠ .space ∧ 0 < c.width) ∧
    (wrapping.comp.line.reverse.dropWhile fun c => c.content = .space).reverse = wrapping.comp.line ∧
    wrapping.comp.line ≠ [] ∧
    120 + ((wrapping.comp.line.drop 6).map (·.width)).sum + 12 ≤ wrapping.set.right := by decide

set_option synthInstance.maxSize 1000 in
set_option maxRecDepth 4000 in
theorem witness_lineModeKeys_wraps_2 :
    (∀ s ∈ [seq (fun q => { q with stageState := .filling }) (keyed 0x69 wrapping)], s.composes ∧
      s.set.mode = .line ∧ s.seq.stageState ≠ .empty) := by decide

set_option synthInstance.maxSize 1000 in
set_option maxRecDepth 4000 in
theorem witness_paperCorrections :
    (∀ k ∈ [(0x0A : Byte), 0x0B, 0x0C], ∀ s ∈ [keyed k (remembered none running), keyed k (remembered (some 4) running)], s.composes ∧
      OrdersOk s.seq ∧ GroupsOk s.seq ∧ MemoryOk s.memory ∧ s.seq.stageState = .empty ∧
      s.comp.line.Pairwise (fun c d => c.start < d.start) ∧ (∀ c ∈ s.comp.line, c.origin ≠ .unreleased ∧
      (c.content = .space → c.word = none)) ∧ s.executing = none ∧ s.seq.queue = [] ∧
      (∀ r ∈ s.memory.records, s.comp.wheel = some r.wheel)) := by decide

set_option synthInstance.maxSize 1000 in
set_option maxRecDepth 4000 in
theorem witness_paperCorrections_2 :
    ((remembered (some 4) running).comp.line.filter fun c => c.start < 144).getLast? = some (cellAt 132 .space (.onPaper none)) ∧
    ((remembered none (comp (fun c => { c with cursor := 132 }) running)).comp.line.filter fun c => c.start < 132).getLast? = some (cellAt 120 (.glyph 0x61) (.onPaper (some 3))) ∧
    (remembered (some 4) running).comp.line.filter (fun c => c.content ≠ .space) = [] ++ [{ cellAt 120 (.glyph 0x61) (.onPaper (some 3)) with word := some 4 }] ++ [] ∧
    (∀ s ∈ [comp (fun c => { c with wheel := some 9 }) (keyed 0x0A (remembered none running))], s.composes ∧
      OrdersOk s.seq ∧ GroupsOk s.seq ∧ MemoryOk s.memory ∧ ∃ r ∈ s.memory.records, s.comp.wheel ≠ some r.wheel) := by decide

set_option synthInstance.maxSize 1000 in
set_option maxRecDepth 4000 in
theorem witness_paperCorrections_3 :
    (∀ s ∈ [keyed 0x0A (inked (queued [{ orderOf 0 (.strike strikeA) .executing with fired := [.glyph], record := some 3, afterHammer := true }] running)), keyed 0x0A (inked (queued [orderOf 0 (.strike strikeA) .executing] running))], s.composes ∧
      OrdersOk s.seq ∧ GroupsOk s.seq ∧ MemoryOk s.memory ∧ s.seq.stageState = .empty ∧
      s.wheel.mounted = s.comp.wheel ∧ s.seq.queue.length < 32 ∧ s.executing = s.seq.queue.head? ∧
      (∀ q ∈ s.seq.queue, q.kind.name ≠ .lift ∧ q.horizontal = 120 ∧ q.vertical = s.comp.vTarget) ∧
      s.comp.line.getLast? = some (cellAt 120 (.glyph 0x61) (.queued 0)) ∧ 120 < s.comp.cursor) := by decide

set_option synthInstance.maxSize 1000 in
set_option maxRecDepth 4000 in
theorem witness_paperCorrections_4 :
    (∀ s ∈ [remembered none (inked (queued [{ orderOf 0 (.strike strikeA) .executing with fired := [.glyph], record := some 3 }] running))], ∀ o, s.executing = some o → ∃ r ∈ s.memory.records, o.record = some r.slot ∧
      s.memory.records = [r] ∧ s.comp.wheel = some r.wheel) ∧
    (wheel (fun v => { v with mounted := some 9 }) running).wheel.mounted ≠ running.comp.wheel ∧
    running.memory.records = [] ∧
    (keyed 0x0C running).comp.line = [] := by decide

set_option synthInstance.maxSize 1000 in
set_option maxRecDepth 4000 in
theorem witness_paperCorrections_apart :
    (∀ s ∈ [underStrike 5], s.composes ∧ OrdersOk s.seq ∧ GroupsOk s.seq ∧ MemoryOk s.memory ∧ s.seq.stageState = .empty ∧
      (∀ c ∈ s.comp.line, c.origin ≠ .unreleased ∧ (c.content = .space → c.word = none)) ∧
      (s.comp.line.filter fun c => c.start < s.comp.cursor).getLast? = s.comp.line.head? ∧
      s.comp.line.map (·.word) = [some 4] ∧ s.executing = s.seq.queue.head? ∧
      (∀ o ∈ s.seq.queue, o.word ≠ some 4 ∧ o.kind.name ≠ .lift ∧ o.vertical = s.comp.vTarget ∧ o.horizontal = 120)) := by
  decide

set_option synthInstance.maxSize 1000 in
set_option maxRecDepth 4000 in
theorem witness_orderStarts :
    (∀ k ∈ [OrderKind.ret 8, .feed 4, .feed (-4), .paperLoad, .paperEject, .wheelChange 254, .wheelChange 0], ∀ x ∈ [120, 1599, 1700], ∀ s ∈ [queued [{ orderOf 0 k .prepared with horizontal := x }] running], s.aside ∧
      s.sequences ∧ s.quiet ∧ s.carriage.state = .idle ∧ s.lift.state ≠ .moving ∧ s.seq.liftToView = false ∧
      s.seq.queue = [{ orderOf 0 k .prepared with horizontal := x }] ∧ (orderOf 0 k).record = none) ∧
    running.carriage.position = 120 ∧
    running.lift.state = .held .view ∧
    0 < 8 ∧
    (-4 : Int) ≠ 0 := by decide

set_option synthInstance.maxSize 1000 in
set_option maxRecDepth 4000 in
theorem witness_orderStarts_2 :
    (∀ s ∈ [remembered none (queued [orderOf 0 (.lift (.record 3)) .prepared] running)], s.aside ∧ s.sequences ∧
      s.quiet ∧ s.carriage.state = .idle ∧ s.lift.state ≠ .moving ∧ s.seq.liftToView = false ∧
      s.seq.queue = [orderOf 0 (.lift (.record 3)) .prepared] ∧ (orderOf 0 (.lift (.record 3))).fired = [] ∧
      MemoryOk s.memory ∧ s.wheel.state = .settled ∧ s.lift.state ≠ .held .correct ∧
      ∃ r ∈ s.memory.records, r.slot = 3 ∧ (r.fires.filter fun f => f.name ∈ r.fired ∧
      f.name ∉ r.lifted) = [⟨.glyph, 120, some 64⟩]) := by decide

set_option synthInstance.maxSize 1000 in
set_option maxRecDepth 4000 in
theorem witness_strikesAndLifts :
    (∀ o ∈ [strikingTwice [.glyph], { orderOf 0 (.lift (.record 3)) .executing with copy := some ⟨[⟨.glyph, 121, some 64⟩], 1300, some 0x61⟩ }], ∀ s ∈ [remembered none (carriage (fun c => { c with state := .moving, target := 121 }) (wheel (fun v => { v with petal := some 64 }) (lift (fun l => { l with state := .held (if o.kind.name = .lift then .correct else .print) }) (queued [o] running))))], s.aside ∧
      s.power.state = .run ∧ s.faults.x = none ∧ s.faults.p = none ∧ s.seq.state = .running ∧ OrdersOk s.seq ∧
      GroupsOk s.seq ∧ s.seq.liftToView = false ∧ s.executing = some o ∧ s.carriage.use = .order ∧
      s.wheel.state = .settled ∧ s.platen.state ≠ .feeding ∧ s.levels.closed = true ∧ s.hammer.state = .ready) := by decide

set_option synthInstance.maxSize 1000 in
set_option maxRecDepth 4000 in
theorem witness_strikesAndLifts_2 :
    (∀ o ∈ [strikingTwice [.glyph], strikingTwice [.glyph, .shadow], { orderOf 0 (.lift (.record 3)) .executing with copy := some ⟨[⟨.glyph, 121, some 64⟩], 1300, some 0x61⟩ }, { orderOf 0 (.lift (.record 3)) .executing with fired := [.glyph], copy := some ⟨[⟨.glyph, 121, some 64⟩], 1300, some 0x61⟩ }], ∀ s ∈ [({ remembered none (hammer (fun h => { h with state := .rest }) (wheel (fun v => { v with petal := some 64 }) (lift (fun l => { l with state := .held (if o.kind.name = .lift then .correct else .print) }) (queued [o] running)))) with pins := { running.pins with hammerHome := true } } : State)], s.aside ∧
      s.power.state = .run ∧ s.faults.x = none ∧ s.faults.p = none ∧ s.seq.state = .running ∧ OrdersOk s.seq ∧
      GroupsOk s.seq ∧ s.seq.liftToView = false ∧ s.executing = some o ∧ s.carriage.state = .idle ∧
      s.carriage.position ≠ 121 ∧ s.wheel.state = .settled ∧ s.platen.state ≠ .feeding ∧ s.hammer.state = .rest ∧
      s.pins.hammerHome = true) := by decide

set_option synthInstance.maxSize 1000 in
set_option maxRecDepth 4000 in
theorem witness_strikesAndLifts_3 :
    (strikingTwice [.glyph]).fired ≠ [] ∧
    (strikingTwice [.glyph]).record = some 3 ∧
    ([⟨.glyph, 120, some 64⟩, ⟨.shadow, 121, some 64⟩] : List Fire).filter (fun x => x.name ∉ (strikingTwice [.glyph]).fired) = [⟨.shadow, 121, some 64⟩] ∧
    ([⟨.glyph, 120, some 64⟩, ⟨.shadow, 121, some 64⟩] : List Fire).filter (fun x => x.name ∉ (strikingTwice [.glyph, .shadow]).fired) = [] := by decide

set_option synthInstance.maxSize 1000 in
set_option maxRecDepth 4000 in
theorem witness_orderEnds :
    (∀ s ∈ [carriage (fun c => { c with state := .moving, target := 120 }) (queued [orderOf 0 (.ret 8) .executing] running)], s.aside ∧
      s.power.state = .run ∧ s.faults.x = none ∧ s.faults.p = none ∧ s.seq.state = .running ∧ OrdersOk s.seq ∧
      GroupsOk s.seq ∧ s.executing = some (orderOf 0 (.ret 8) .executing) ∧ s.carriage.use = .order ∧
      s.lift.state ≠ .moving ∧ s.quiet ∧ s.seq.liftToView = false) := by decide

set_option synthInstance.maxSize 1000 in
set_option maxRecDepth 4000 in
theorem witness_orderEnds_2 :
    (∀ k ∈ [OrderKind.ret 8, .feed 4, .feed 8, .feed (-4), .paperLoad, .paperEject], ∀ s ∈ [platen (fun p => { p with state := .feeding, remaining := 4 }) (queued [{ orderOf 0 k .executing with phase := .feeding }] running)], s.aside ∧
      s.power.state = .run ∧ s.faults.x = none ∧ s.faults.p = none ∧ s.seq.state = .running ∧ OrdersOk s.seq ∧
      GroupsOk s.seq ∧ s.executing = some { orderOf 0 k .executing with phase := .feeding }) := by decide

set_option synthInstance.maxSize 1000 in
set_option maxRecDepth 4000 in
theorem witness_orderEnds_3 :
    (∀ x ∈ [(none : Option Nat), some 5, some 6], ∀ p ∈ [HomingPhase.search, .park 5], ∀ s ∈ [wheel (fun v => { v with state := .homing, homing := some ⟨.change, x, p⟩ }) (queued [{ orderOf 0 (.wheelChange (x.getD 0)) .executing with phase := .home }] running)], s.aside ∧
      s.power.state = .run ∧ s.faults.x = none ∧ s.faults.p = none ∧ s.seq.state = .running ∧ OrdersOk s.seq ∧
      GroupsOk s.seq ∧ s.executing = some { orderOf 0 (.wheelChange (x.getD 0)) .executing with phase := .home } ∧
      s.wheel.state = .homing ∧ s.wheel.homing = some ⟨.change, x, p⟩) := by decide

theorem witness_completes :
    ∀ s ∈ [platen (fun p => { p with state := .feeding, remaining := 4 }) (seq (fun q => { q with groups := [{ id := 3, kind := .line, remaining := 1 }] }) (queued [{ orderOf 0 (.feed 4) .executing with phase := .feeding, group := 3 }] running))],
  s.aside ∧
      OrdersOk s.seq ∧ GroupsOk s.seq ∧ s.seq.queue.tail = [] ∧ s.seq.stage = [] ∧ s.link.tx ≠ none ∧
      s.link.notices = [] ∧ (∀ p ∈ s.seq.queue.tail ++ s.seq.stage, p.kind.name ≠ .lift) := by decide

set_option synthInstance.maxSize 1000 in
set_option maxRecDepth 4000 in
theorem witness_homingsEnd_start :
    (∀ c ∈ [CarriageState.moving, .homing], ∀ s ∈ [carriage (fun d => { d with state := c, target := 120, use := .startUp }) (starting .carriage)], homesAlone s ∧
      s.power.state = .starting ∧ s.power.wake = none ∧ s.power.softReset = none ∧ s.seq.state = .stopped ∧
      s.seq.queue = [] ∧ s.seq.stage = [] ∧ s.power.startUp = some .carriage ∧ s.carriage.use = .startUp) := by decide

set_option synthInstance.maxSize 1000 in
set_option maxRecDepth 4000 in
theorem witness_homingsEnd_start_2 :
    (∀ p ∈ [HomingPhase.search, .park 5], ∀ s ∈ [wheel (fun v => { v with state := .homing, homing := some ⟨.startUp, none, p⟩ }) (starting .wheel), lift (fun l => { l with state := .held .print }) (wheel (fun v => { v with state := .homing, homing := some ⟨.startUp, none, p⟩ }) (starting .wheel))], homesAlone s ∧
      s.power.state = .starting ∧ s.power.wake = none ∧ s.power.softReset = none ∧ s.seq.state = .stopped ∧
      s.seq.queue = [] ∧ s.seq.stage = [] ∧ s.power.startUp = some .wheel ∧
      s.wheel.homing = some ⟨.startUp, none, p⟩ ∧ s.quiet) := by decide

set_option synthInstance.maxSize 1000 in
set_option maxRecDepth 4000 in
theorem witness_homingsEnd_start_3 :
    (∀ s ∈ [lift (fun l => { l with state := .moving, target := .view, use := .startUp }) (starting .lift)], homesAlone s ∧
      s.power.state = .starting ∧ s.power.wake = none ∧ s.power.softReset = none ∧ s.seq.state = .stopped ∧
      s.seq.queue = [] ∧ s.seq.stage = [] ∧ s.power.startUp = some .lift ∧ s.lift.viaView = false) := by decide

set_option synthInstance.maxSize 1000 in
set_option maxRecDepth 4000 in
theorem witness_homingsEnd_wake :
    (∀ p ∈ [Part.running, .done], ∀ st ∈ [PowerState.standby, .sleep], ∀ c ∈ [CarriageState.moving, .homing], ∀ s ∈ [carriage (fun d => { d with state := c, target := 120, use := .wake }) (power (fun w => { w with wake := some { carriage := .running, wheel := p, position := 120, faults := [] } }) (resting st running))], homesAlone s ∧
      s.power.wake.isSome = true ∧ s.power.startUp = none ∧ s.power.softReset = none ∧ s.seq.state ≠ .stopped ∧
      s.faults.x = none ∧ s.faults.p = none) := by decide

set_option synthInstance.maxSize 1000 in
set_option maxRecDepth 4000 in
theorem witness_homingsEnd_wake_2 :
    (∀ p ∈ [Part.running, .done], ∀ r ∈ [none, some 5, some 6], ∀ ph ∈ [HomingPhase.search, .park 5], ∀ s ∈ [wheel (fun v => { v with state := .homing, homing := some ⟨.wake, r, ph⟩ }) (power (fun w => { w with wake := some { carriage := p, wheel := .running, position := 120, faults := [] } }) (resting .standby running))], homesAlone s ∧
      s.power.wake.isSome = true ∧ s.power.startUp = none ∧ s.power.softReset = none ∧ s.seq.state ≠ .stopped ∧
      s.faults.x = none ∧ s.faults.p = none ∧ s.wheel.homing = some ⟨.wake, r, ph⟩) ∧
    (queued [orderOf 0 .move] running).seq.queue ≠ [] := by decide

set_option synthInstance.maxSize 1000 in
set_option maxRecDepth 4000 in
theorem witness_homingsEnd_reset :
    (∀ p ∈ [Part.running, .done], ∀ st ∈ [PowerState.run, .standby, .sleep], ∀ c ∈ [CarriageState.moving, .homing], ∀ s ∈ [carriage (fun d => { d with state := c, target := 120, use := .softReset }) (wheel (fun v => { v with homing := some ⟨.softReset, none, .search⟩ }) (seq (fun q => { q with state := .stopped }) (power (fun w => { w with softReset := some { carriage := .running, wheel := p } }) (resting st running))))], homesAlone s ∧
      s.power.softReset.isSome = true ∧ s.power.startUp = none ∧ s.power.wake = none ∧ s.seq.state = .stopped ∧
      s.wheel.homing ≠ none) := by decide

set_option synthInstance.maxSize 1000 in
set_option maxRecDepth 4000 in
theorem witness_homingsEnd_reset_2 :
    (∀ p ∈ [Part.running, .done], ∀ ph ∈ [HomingPhase.search, .park 5], ∀ s ∈ [wheel (fun v => { v with state := .homing, homing := some ⟨.softReset, none, ph⟩ }) (seq (fun q => { q with state := .stopped }) (power (fun w => { w with softReset := some { carriage := p, wheel := .running } }) running))], homesAlone s ∧
      s.power.softReset.isSome = true ∧ s.power.startUp = none ∧ s.power.wake = none ∧ s.seq.state = .stopped ∧
      s.carriage.state ≠ .lost ∧ s.wheel.homing = some ⟨.softReset, none, ph⟩) := by decide

theorem witness_flashReads_malformed :
    (∀ s ∈ [({ spell (fun p => { p with lookups := [⟨some 5, 2, [1, 2], .bucket⟩], words := [⟨5, [1, 2], false, .pending, 2, 0, 120⟩] }) running with port := { current := some ⟨0, 3, .bucket⟩ } } : State)], s.aside ∧
      s.executing = none ∧ SpellOk s.spell ∧ s.port.current = some ⟨0, 3, .bucket⟩ ∧
      s.spell.lookups = [⟨some 5, 2, [1, 2], .bucket⟩]) ∧
    scanBucket [1, 2] 3 [3, 1, 2] = .malformed ∧
    scanBucket [1, 2] 3 [0, 1, 2] = .malformed := by decide

set_option synthInstance.maxSize 1000 in
set_option maxRecDepth 4000 in
theorem witness_flashTables :
    (7 :: 0x0A :: List.replicate 290 (0 : Byte)).length = 292 ∧
    (List.replicate 292 (0 : Byte)).length = 292 ∧
    (((7 :: 0x0A :: List.replicate 290 (0 : Byte)).getD 0 0).toNat ≠ 0 ∧
      ((7 :: 0x0A :: List.replicate 290 (0 : Byte)).getD 1 0).toNat = 0x0A) ∧
    ((List.replicate 292 (0 : Byte)).getD 0 0).toNat = 0 ∧
    (0 : Byte) = 0 ∧
    ([1] : List Byte).length < (2 : Byte).toNat ∧
    (∀ v ∈ [[1, 2]], v ≠ [1, 3] ∧ sortsAfter v [1, 3] = false) ∧
    sortsAfter [1, 4] [1, 3] = true := by decide

set_option synthInstance.maxSize 1000 in
set_option maxRecDepth 4000 in
theorem witness_keyRequest_invalid :
    (∀ c ∈ [(0x00 : Byte), 0x0E, 0x1F, 0x80], ∀ s ∈ [running, State.reset], s.hears ∧
      (s.power.state = .run ∨ s.power.state = .starting) ∧
      s.power.entering = none ∧
  ¬ ∀ k ∈ [(⟨0x61, 0⟩ : KeyBytes), ⟨c, 0⟩], (1 ≤ k.code.toNat ∧
      k.code.toNat ≤ 0x0D) ∨ (0x20 ≤ k.code.toNat ∧ k.code.toNat ≤ 0x7F)) ∧
    (∀ s ∈ [resting .standby running, resting .sleep running], s.hears ∧ s.power.softReset = none ∧
      (s.power.state = .standby ∨ s.power.state = .sleep)) ∧
    (∀ s ∈ [power (fun p => { p with entering := some .sleep }) running], s.hears ∧ s.power.state = .run ∧
      s.power.entering ≠ none) := by decide

set_option synthInstance.maxSize 1000 in
set_option maxRecDepth 4000 in
theorem witness_pauseAndContinue_failures :
    (∀ p ∈ [(FaultKind.coverOpen, orderOf 0 .move, levels (fun l => { l with closed := false }) running),
    (.noWheelTable, orderOf 0 (.strike strikeA), wheel (fun v => { v with mounted := none }) running),
    (.absentPetal, orderOf 0 (.strike { strikeA with petal := none }), running),
    (.liftWheel, (orderOf 0 (.lift (.record 3))), wheel (fun v => { v with mounted := some 9 }) { remembered none running with slots := [{ slotSeven with id := 9 }] }),
    (.paperOut, orderOf 0 (.strike strikeA), levels (fun l => { l with present := false }) running),
    (.ribbonEnd, orderOf 0 (.strike strikeA), levels (fun l => { l with ribbonEnd := true }) running),
    (.tapeEnd, (orderOf 0 (.lift (.record 3))), levels (fun l => { l with tapeEnd := true }) (remembered none running))],
  ∀ s ∈ [seq (fun q => { q with state := .paused }) (queued [p.2.1] p.2.2)], s.hears ∧
      NumbersOk s.seq ∧ s.seq.state = .paused ∧ s.seq.recovery = {} ∧
    s.faults.x = none ∧ s.faults.p = none ∧
      s.seq.queue = [p.2.1] ∧ p.2.1.state ≠ .executing ∧ p.2.1.held = none ∧ s.lasts p.2.1 ∧
      s.failure p.2.1 = some p.1 ∧ s.link.tx ≠ none ∧ s.link.notices = []) := by decide

theorem witness_pauseAndContinue_stale :
    (∀ r ∈ [LiftRef.gone, .record 3], ∀ s ∈ [seq (fun q => { q with state := .paused, groups := [{ id := 4, kind := .correction, remaining := 1 }] }) (queued [{ orderOf 0 (.lift r) with group := 4 }] running)],
  s.hears ∧
      NumbersOk s.seq ∧ s.seq.recovery = {} ∧ s.faults.x = none ∧ s.faults.p = none ∧ s.seq.stage = [] ∧
      s.seq.pausePending = false ∧ s.memory.records = []) ∧
    (∀ k ∈ [OrderKind.move, .strike { strikeA with petal := none }], ∀ s ∈ [seq (fun q => { q with pausePending := true }) (queued [orderOf 0 .move .executing, orderOf 1 k] running)],
  s.hears ∧
      NumbersOk s.seq ∧ s.seq.state = .running ∧ s.seq.pausePending = true ∧ s.faults.p = none ∧
      s.seq.recovery = {} ∧ s.lasts (orderOf 1 k)) := by decide

theorem witness_resumeRequest_test :
    ∀ s ∈ [({ faulted .paperOut running with selfTest := some { group := 5, step := 1, sub := 0, failed := [], position := none, wheel := none } } : State)],
  s.hears ∧
      s.power.state ≠ .starting ∧ s.power.softReset = none ∧ s.faults.x ≠ none ∧ s.selfTest ≠ none := by decide

theorem witness_flushRequest_keeps :
    (∀ h ∈ [HammerState.on, .rest, .ready], ∀ s ∈ [carriage (fun c => { c with state := if h = .ready then .moving else .idle }) (hammer (fun d => { d with state := h }) (queued [strikingTwice [.glyph], orderOf 1 .move] running))],
  s.hears ∧
      s.power.state = .run ∧ s.seq.state ≠ .stopped ∧ s.selfTest = none ∧ s.power.wake = none ∧
      s.power.entering = none ∧ s.power.startUp = none ∧ s.power.softReset = none ∧
      NumbersOk s.seq ∧
  s.executing = some (strikingTwice [.glyph]) ∧
      (strikingTwice [.glyph]).afterHammer = true ∧ s.faults.x = none ∧ s.faults.p = none ∧
      (strikingTwice [.glyph]).kind.name = .strike ∧
  (s.hammer.state = .on ∨ s.hammer.state = .rest ∨ (s.carriage.state = .moving ∧
      (strikingTwice [.glyph]).nextFire ≠ none)) ∧ s.seq.queue.tail ++ s.seq.stage ≠ [] ∧
      s.comp.line.all (fun c => !c.unreleased) = true) ∧
    (∀ s ∈ [hammer (fun d => { d with state := .on }) (queued [{ orderOf 0 (.lift (.record 3)) .executing with afterHammer := true }] running)],
  s.hears ∧
      NumbersOk s.seq ∧ s.executing = some { orderOf 0 (.lift (.record 3)) .executing with afterHammer := true } ∧
      s.faults.x = none ∧ s.faults.p = none) := by decide

theorem witness_offAndWake_wakes :
    (∀ p ∈ [PowerState.run, .standby], ∀ s ∈ [power (fun w => { w with state := p, deepOff := some .replying, wakeAfterOff := true }) (link (fun l => { l with tx := some ⟨⟨0x59, [0]⟩, true⟩ }) running)],
  s.link.tx = some ⟨⟨0x59, [0]⟩, true⟩ ∧
      s.power.deepOff = some .replying ∧ s.power.wakeAfterOff = true ∧ s.lift.state = .held .view ∧
      s.link.replies.length < 8 ∧ s.power.state ≠ .deepOff) := by decide

theorem witness_resetRequest_groups :
    ∀ s ∈ [seq (fun q => { q with groups := (List.range 15).map fun i => { id := i + 1, kind := .line, remaining := 1, flushed := decide (i = 3) } }) running],
  s.hears ∧
      s.power.state ≠ .starting ∧ s.link.tx ≠ none ∧ s.selfTest = none ∧ s.seq.groups.length ≤ 15 := by decide

theorem witness_orderStartAndCarriage_stalls :
    (∀ p ∈ [CarriageState.moving, .homing], ∀ s ∈ [levels (fun l => { l with present := false }) (carriage (fun c => { c with state := p, rightwards := true }) (queued [orderOf 0 .move .executing, { orderOf 1 (.strike strikeA) with held := some .paperOut }] running))],
  s.aside ∧
      OrdersOk s.seq ∧ s.carriage.use = .order ∧ s.faults.x = none ∧ s.faults.p = none ∧
      s.executing = some (orderOf 0 .move .executing) ∧
  s.lasts { orderOf 1 (.strike strikeA) with held := some .paperOut } ∧
      s.failure { orderOf 1 (.strike strikeA) with held := some .paperOut } = some .paperOut) := by decide

theorem witness_wheelEvents_stalls :
    ∀ s ∈ [wheel (fun v => { v with state := .rotating }) (queued [orderOf 0 (.strike strikeA) .executing] running)],
  s.aside ∧
      OrdersOk s.seq ∧ s.executing = some (orderOf 0 (.strike strikeA) .executing) ∧ s.faults.x = none ∧
      s.faults.p = none ∧ s.wheel.state = .rotating := by decide

theorem witness_platenLiftHammer_stalls :
    (∀ s ∈ [lift (fun l => { l with state := .moving, target := .print }) (platen (fun p => { p with state := .feeding, remaining := 8 }) (queued [{ orderOf 0 (.feed 8) .executing with phase := .feeding }] running))],
  s.aside ∧
      OrdersOk s.seq ∧ s.executing = some { orderOf 0 (.feed 8) .executing with phase := .feeding } ∧
      s.faults.x = none ∧ s.faults.p = none ∧ s.platen.state = .feeding ∧ s.lift.state = .moving ∧
      s.lift.use = .order ∧ s.seq.state ≠ .stopped) := by decide

set_option synthInstance.maxSize 1000 in
set_option maxRecDepth 4000 in
theorem witness_sensorEvents_again :
    (∀ p ∈ [(FaultKind.paperOut, { running.levels with present := false }, { running.levels with present := true }, (none : Option FaultKind)),
    (.paperOut, { running.levels with present := false }, { running.levels with present := false, ribbonEnd := true }, some .paperOut),
    (.ribbonEnd, { running.levels with ribbonEnd := true }, { running.levels with ribbonEnd := true, present := false }, some .paperOut)],
  ∀ o ∈ [{ orderOf 0 (.strike strikeA) with held := some p.1, heldWritten := true }],
  ∀ s ∈ [({ seq (fun q => { q with state := .faulted }) (queued [o] running) with levels := p.2.1, faults := { p := some ⟨p.1, some .strike, 0, some (120, 0), some 0x61, false, none, 0, []⟩ } } : State)],
  s.aside ∧
      s.executing = none ∧ OrdersOk s.seq ∧ s.levels ≠ p.2.2.1 ∧ s.faults.x = none ∧ s.seq.state = .faulted ∧
      s.lasts o ∧ o.copy = none ∧ Engine.failure o { s.toEngine with levels := p.2.2.1 } = p.2.2.2 ∧
      s.link.tx ≠ none ∧ s.link.notices = []) := by decide

set_option synthInstance.maxSize 1000 in
set_option maxRecDepth 4000 in
theorem witness_lineRelease_hold :
    (∀ st ∈ [WordState.pending, .suspect, .clean], ∀ s ∈ [spell (fun p => { p with words := [⟨5, [1, 2], false, st, 0, 0, 120⟩] }) (set (fun t => { t with spell := .hold }) (keyed 0x02 (comp (fun c => { c with line := [{ cellAt 120 (.glyph 0x61) .unreleased with word := some 5 }], cursor := 132, index := 1 }) (opened running))))],
  s.composes ∧
      s.seq.stageState = .empty ∧ s.seq.stage = [] ∧ s.seq.queue = [] ∧ SpellOk s.spell ∧ s.seq.groups = [] ∧
      s.carriage.state = .idle ∧
  ((∃ w ∈ (after (exec .paragraphReturn s)).spell.words, some 5 = some w.id ∧
      (w.state = .pending ∨ w.state = .suspect)) ↔ st ≠ .clean)) := by decide

set_option synthInstance.maxSize 1000 in
set_option maxRecDepth 4000 in
theorem witness_lineRelease_hold_2 :
    (∀ s ∈ [seq (fun q => { q with stageState := .held, stage := [orderOf 0 (.strike { strikeA with word := some 5 }), orderOf 1 (.ret 8)], nextOrder := 9 }) (spell (fun p => { p with words := [⟨5, [1, 2], false, .suspect, 0, 0, 120⟩] }) (set (fun t => { t with spell := .hold }) running))],
  OffOk s.toEngine ∧
      OrdersOk s.seq ∧ SpellOk s.spell ∧ HeldOk s.toEngine ∧ s.seq.stageState = .held ∧
      (after (step { s with pending := [.wheelSettled] })).seq.stageState = .held) := by decide

set_option synthInstance.maxSize 1000 in
set_option maxRecDepth 4000 in
theorem witness_userWordList_close :
    (∀ w ∈ [(none : Option WordId), some 5], ∀ s ∈ [spell (fun p => { p with words := [⟨5, [], false, .clean, 0, 0, 120⟩] }) (keyed 0x04 (set (fun t => { t with right := 400 }) (comp (fun c => { c with cursor := 400, word := some 5, line := [{ cellAt 120 (.glyph 0x61) (.onPaper none) with word := w }] }) running)))],
  s.composes ∧
      SpellOk s.spell ∧ (∀ c ∈ s.comp.line, c.origin ≠ .unreleased) ∧ s.set.right ≤ s.comp.cursor ∧
      s.comp.word = some 5 ∧ (∀ v ∈ s.spell.words, v.id = 5 → v.state ≠ .opened)) ∧
    (∀ x ∈ [(0, false), (144, false), (145, true)], ∀ n ∈ [0, 1, 4], ∀ c ∈ [fun (i : Nat) (g : Byte) => ({ cellAt (120 + 12 * i) (.glyph g) (.onPaper none) with word := some (5 : WordId) } : Cell)],
  ∀ s ∈ [spell (fun p => { p with words := [⟨5, [], false, .opened, 1, 0, x.1⟩], lookups := (List.range n).map fun i => ⟨none, 0, [1, 2], if i = 0 then .bucket else .waiting⟩ })
    (keyed 0x04 (set (fun t => { t with right := 400 }) (comp (fun d => { d with cursor := 400, word := some 5, line := [cellAt 60 .space (.onPaper none), c 0 0x27, c 1 0x61, c 2 0x62, cellAt 156 (.glyph 0x31) (.onPaper none)] }) running)))],
  s.composes ∧
      SpellOk s.spell ∧ s.set.right ≤ s.comp.cursor ∧
      (∀ d ∈ [c 0 0x27, c 1 0x61, c 2 0x62], d.word = some 5) ∧
  (if x.2 then ∀ d ∈ [c 0 0x27, c 1 0x61, c 2 0x62], d.start < x.1 else x.1 ≤ (c 2 0x62).start) ∧
      ([c 0 0x27, c 1 0x61, c 2 0x62].filterMap fun d => match d.content with | .glyph g => letterCode g | _ => none) = List.replicate 1 27 ++ [1, 2] ++ List.replicate 0 27 ∧
  (∀ l ∈ s.spell.lookups.head?, l.phase ≠ .waiting)) := by decide

theorem witness_userWordList_open :
    (∀ n ∈ [0, 31, 32], ∀ s ∈ [spell (fun p => { p with lastWord := 255, words := (List.range n).map fun i => ⟨byteOf i, [], false, .pending, 0, 0, 0⟩, lookups := [⟨some 0, 0, [1, 2], .bucket⟩, ⟨some 1, 0, [1, 2], .waiting⟩] }) (comp (fun c => { c with line := [{ cellAt 120 (.glyph 0x61) (.onPaper none) with word := some 200 }] }) running)],
  s.spell.words.length = n ∧
      SpellOk s.spell ∧ (∀ w ∈ s.spell.words, w.id ≠ 200) ∧ ∀ c ∈ s.comp.line, c.word = some 200) := by decide

set_option synthInstance.maxSize 1000 in
set_option maxRecDepth 4000 in
theorem witness_resumeRequest_order :
    (∀ p ∈ [(none, ({ orderOf 0 (.strike strikeA) with held := some .paperOut, heldWritten := true } : Order), running),
    (some FaultKind.noWheelTable, { orderOf 0 (.strike strikeA) with held := some .paperOut, heldWritten := true }, wheel (fun v => { v with mounted := none }) running)],
  ∀ s ∈ [({ seq (fun q => { q with state := .faulted }) (queued [p.2.1, orderOf 1 (.feed 4)] p.2.2) with faults := { p := some ⟨.paperOut, some .strike, 0, some (120, 0), some 0x61, false, none, 0, []⟩, named := some 0 } } : State)],
  s.hears ∧
      s.power.state ≠ .starting ∧ s.power.softReset = none ∧ s.faults.p ≠ none ∧ s.levels.closed = true ∧
      s.levels.present = true ∧ s.levels.ribbonEnd = false ∧ s.levels.tapeEnd = false ∧
  s.selfTest = none ∧
      s.power.entering = none ∧ s.power.startUp = none ∧ OrdersOk s.seq ∧ s.wheel.state = .settled ∧
      s.wheel.homing = none ∧ s.faults.x = none ∧ s.lasts p.2.1 ∧ s.failure p.2.1 = p.1) := by decide

set_option synthInstance.maxSize 1000 in
set_option maxRecDepth 4000 in
theorem witness_resumeRequest_order_2 :
    (∀ s ∈ [({ seq (fun q => { q with state := .faulted }) running with faults := { p := some ⟨.paperOut, some .strike, 0, some (120, 0), some 0x61, false, none, 0, []⟩, named := some 0 } } : State)],
  s.hears ∧
      s.faults.p ≠ none ∧ s.levels.closed = true ∧ s.levels.present = true ∧ s.selfTest = none ∧ OrdersOk s.seq ∧
      s.seq.queue = [] ∧ s.seq.stage = []) := by decide

set_option synthInstance.maxSize 1000 in
set_option maxRecDepth 4000 in
theorem witness_resumeRequest_homes :
    (∀ n ∈ [0, 5], ∀ s ∈ [({ seq (fun q => { q with state := .faulted }) (wheel (fun v => { v with state := .unknown }) (queued [orderOf 0 (.wheelChange 9), orderOf 1 .move] running)) with faults := { p := some ⟨.tapeEnd, some .lift, 0, some (120, 0), some 0x61, false, none, 0, []⟩, named := some n, wheelBefore := some 7 } } : State)],
  s.hears ∧
      s.power.state ≠ .starting ∧ s.power.softReset = none ∧ s.faults.p ≠ none ∧ s.levels.closed = true ∧
      s.levels.present = true ∧ s.levels.ribbonEnd = false ∧ s.levels.tapeEnd = false ∧
  s.selfTest = none ∧
      s.power.entering = none ∧ s.power.startUp = none ∧ OrdersOk s.seq ∧ s.executing = none ∧
      s.wheel.state = .unknown ∧
  (s.seq.queue.head?.map (·.number) = s.faults.named ↔ n = 0) ∧
      s.seq.queue.any (fun o => o.kind.name = .wheelChange) = true ∧
      s.seq.queue.tail.any (fun o => o.kind.name = .wheelChange) = false) := by decide

set_option synthInstance.maxSize 1000 in
set_option maxRecDepth 4000 in
theorem witness_resumeRequest_homes_2 :
    (∀ u ∈ [HomingUse.resume, .order, .change], ∀ s ∈ [wheel (fun v => { v with state := .homing, homing := some ⟨u, some 7, .search⟩ }) (seq (fun q => { q with state := .faulted, queue := [orderOf 0 (.strike strikeA) .executing] }) (faulted .liftStall (queued [] running)))],
  s.hears ∧
      s.faults.x ≠ none ∧ s.levels.closed = true ∧ s.levels.present = true ∧ s.levels.ribbonEnd = false ∧
      s.selfTest = none ∧ s.power.entering = none ∧ s.power.startUp = none ∧ OrdersOk s.seq ∧ s.seq.queue ≠ []) := by decide

set_option synthInstance.maxSize 1000 in
set_option maxRecDepth 4000 in
theorem witness_targets :
    (∀ s ∈ [platen (fun p => { p with position := 8 }) (queued [orderOf 0 .move] { running with memory := { records := [⟨3, 0, 8, 120, some 0x61, some 64, none, 7, 12, 1100, [⟨.glyph, 120, some 64⟩], [.glyph], [], none⟩] } })],
  s.hears ∧
      s.power.state = .run ∧ s.executing = none ∧ NumbersOk s.seq ∧ s.seq.queue ++ s.seq.stage ≠ [] ∧
      s.comp.line.all (fun c => !c.unreleased) = true ∧
      s.platen.position ≠ s.comp.vTarget ∧
  (after (exec .flush s)).linedUp s.memory.records [] ∧
      ((after (exec .flush s)).comp.line.map (·.start)) = [120] ∧
      (after (exec .reset s)).linedUp s.memory.records []) ∧
    (∀ k ∈ [(0x01, Instr.returnKey), ((0x06 : Byte), .index)], ∀ s ∈ [keyed k.1 (queued [{ orderOf 0 (.strike strikeA) with vertical := 8 }] { running with memory := { records := [⟨3, 0, 8, 120, some 0x62, some 65, none, 7, 12, 1100, [⟨.glyph, 120, some 65⟩], [.glyph], [], none⟩, ⟨4, 0, 8, 144, some 0x62, some 65, none, 7, 12, 1100, [⟨.glyph, 120, some 65⟩], [.glyph], [], none⟩] } })],
  s.composes ∧
      s.takesOrders 1 ∧ NumbersOk s.seq ∧ s.set.spacing = 8 ∧ (∀ c ∈ s.comp.line, c.origin ≠ .unreleased) ∧
      (after (exec k.2 s)).linedUp s.memory.records s.seq.queue ∧
  (after (exec k.2 s)).comp.line.map (fun c => (c.start, c.content, c.origin)) = [(120, .glyph 0x61, .queued 0), (144, .glyph 0x62, .onPaper (some 4))]) ∧
    (∀ s ∈ [keyed 0x0D (comp (fun c => { c with relocateV := 8 }) (queued [{ orderOf 0 (.strike strikeA) with vertical := 8 }] running))],
  s.composes ∧
      s.takesOrders 2 ∧ NumbersOk s.seq ∧ s.comp.vTarget ≠ s.comp.relocateV ∧
      ∀ c ∈ s.comp.line, c.origin ≠ .unreleased) := by decide

set_option synthInstance.maxSize 1000 in
set_option maxRecDepth 4000 in
theorem witness_bellTested :
    (∀ p ∈ [(840, false, true), (839, false, false), (900, false, true), (840, true, false)], ∀ x ∈ [p.1 - 12], ∀ k ∈ [(0x61, Instr.printableKey), ((0x20 : Byte), .space)], ∀ m ∈ [Mode.direct, .line],
  ∀ s ∈ [set (fun t => { t with mode := m }) (comp (fun c => { c with cursor := x, bellRung := p.2.1, line := if m = .direct then [] else [cellAt 120 (.glyph 0x61) .unreleased] }) (keyed k.1 running))],
  s.composes ∧
      s.takesOrders 1 ∧ NumbersOk s.seq ∧ s.comp.cursor + 12 ≤ s.set.right ∧ s.set.right = 900 ∧
      s.set.bellZone = 60 ∧ (∀ c ∈ s.comp.line, c.start < x) ∧ s.link.tx ≠ none ∧
      s.link.notices = [] ∧
  ((s.comp.bellRung = false ∧ 900 ≤ x + 12 + 60) ↔ p.2.2 = true) ∧
      ((after (exec k.2 s)).raised (.bell .approach) ↔ p.2.2 = true)) ∧
    (∀ y ∈ [839, 840, 899], ∀ s ∈ [set (fun t => { t with tabs := [y] }) (keyed 0x04 running)],
  s.composes ∧
      s.takesOrders 1 ∧ NumbersOk s.seq ∧ s.comp.cursor < y ∧ y < s.set.right ∧
      ((after (exec .tab s)).raised (.bell .approach) ↔ y ≠ 839)) := by decide

set_option synthInstance.maxSize 1000 in
set_option maxRecDepth 4000 in
theorem witness_lineRelease_cut :
    (∀ s ∈ [keyed 0x01 (comp (fun c => { c with line := [{ cellAt 120 (.glyph 0x61) .unreleased with word := some 5 }, { cellAt 1592 (.glyph 0x62) .unreleased with width := 1500, word := some 6 }], cursor := 156, index := 2 }) (spell (fun p => { p with lastWord := 6, words := [⟨5, [1], false, .clean, 0, 0, 120⟩, ⟨6, [2], false, .clean, 0, 0, 132⟩] }) (opened running)))],
  s.composes ∧
      s.seq.stageState = .empty ∧ s.seq.stage = [] ∧ s.seq.queue = [] ∧ s.set.spell ≠ .hold ∧ s.seq.groups = [] ∧
      s.carriage.state = .idle ∧
      (∃ c ∈ s.comp.line, c.origin = .unreleased) ∧
  (finishLine (placeLine s.set false s.comp.line)).2.1.map (·.word) = [some 6]) := by decide

set_option synthInstance.maxSize 1000 in
set_option maxRecDepth 4000 in
theorem witness_orderStartAndCarriage_homings :
    (∀ p ∈ [(HomingUse.startUp, CarriageUse.startUp), (.wake, .wake), (.softReset, .softReset), (.resume, .resume), (.selfTest, .selfTest), (.order, .order)],
  ∀ a ∈ [AfterHoming.to 1, .to 1599, .leftMargin, .stay], ∀ s ∈ [carriage (fun c => { c with state := .homing, use := p.2, after := a, start := 1560 }) running],
  s.staysOn ∧
      OrdersOk s.seq ∧ s.carriage.state = .homing ∧ 0 < s.set.left ∧ (1551 + 48 = 1599) ∧ s.executing = none ∧
      s.selfTest = none ∧ a ≠ .to 0) := by decide

set_option synthInstance.maxSize 1000 in
set_option maxRecDepth 4000 in
theorem witness_orderStartAndCarriage_homings_2 :
    (∀ q ∈ [[], [orderOf 0 (.feed 4)]], ∀ i ∈ [Instr.homeStepLimit, .carriageMotionTimerExpiry], ∀ s ∈ [carriage (fun c => { c with state := .homing, rightwards := true, use := .resume }) (if q = [] then running else queued q running)],
  s.staysOn ∧
      OrdersOk s.seq ∧ s.power.softReset = none ∧ s.executing = none ∧ s.carriage.failsAt i = true ∧
      s.selfTest = none ∧ s.carriage.use = .resume) := by decide

set_option synthInstance.maxSize 1000 in
set_option maxRecDepth 4000 in
theorem witness_orderStartAndCarriage_homings_3 :
    (∀ i ∈ [Instr.homeStepLimit, .carriageMotionTimerExpiry], ∀ s ∈ [({ carriage (fun c => { c with state := .homing, rightwards := true, use := .selfTest }) running with selfTest := some { group := 5, step := 2, sub := 0, failed := [], position := none, wheel := none } } : State)],
  s.staysOn ∧
      OrdersOk s.seq ∧ s.power.softReset = none ∧ s.executing = none ∧ s.carriage.failsAt i = true ∧
      s.seq.recovery = {} ∧ s.selfTest.map (·.step) = some 2) := by decide

set_option synthInstance.maxSize 1000 in
set_option maxRecDepth 4000 in
theorem witness_wheelEvents_fires :
    (∀ p ∈ [(CarriageState.moving, 300), (.idle, 120)], ∀ s ∈ [lift (fun l => { l with state := .held .print }) (wheel (fun v => { v with state := .rotating, target := 64 }) (carriage (fun c => { c with state := p.1, target := p.2 }) (queued [orderOf 0 (.strike strikeA) .executing] running)))],
  s.aside ∧
      OrdersOk s.seq ∧ s.executing = some (orderOf 0 (.strike strikeA) .executing) ∧ s.faults.x = none ∧
      s.faults.p = none ∧ s.wheel.state = .rotating ∧
      strikeA.fires.head?.bind (·.petal) = some s.wheel.target ∧
  s.carriage.state = p.1 ∧
      s.carriage.position = 120 ∧ s.lift.state = .held .print ∧ s.platen.state ≠ .feeding ∧ s.levels.closed = true ∧
      s.hammer.state = .ready ∧ s.seq.liftToView = false) := by decide

set_option synthInstance.maxSize 1000 in
set_option maxRecDepth 4000 in
theorem witness_wheelEvents_phases :
    (∀ u ∈ [HomingUse.startUp, .softReset, .change, .wake, .resume, .selfTest, .recovery, .cover, .order], ∀ h ∈ [HomingPhase.search, .read 10 [], .read 10 (List.replicate 7 true), .park 7],
  ∀ s ∈ [wheel (fun v => { v with state := .homing, homing := some ⟨u, none, h⟩ }) running],
  OrdersOk s.seq ∧
      s.staysOn ∧ s.wheel.state = .homing ∧ s.wheel.homing = some ⟨u, none, h⟩ ∧
      (s.power.softReset = none ∨ u = .softReset) ∧ s.levels.closed = true) ∧
    (∀ w ∈ [14, 15], codeRead 10 (List.replicate 7 true) w = if w = 14 then 254 else 255) ∧
    codeRead 10 (List.replicate 7 false) 14 = 0 ∧
    (∀ p ∈ [(HomingPhase.search, Instr.wheelSearchLimit), (.read 10 [], .indexMark 10), (.read 10 (List.replicate 7 true), .codeMark 15), (.park 7, .wheelRotationTimerExpiry)], (Homing.failsAt ⟨.startUp, none, p.1⟩ p.2).isSome = true) := by decide

set_option synthInstance.maxSize 1000 in
set_option maxRecDepth 4000 in
theorem witness_wheelEvents_ends :
    (∀ h ∈ [HomingPhase.search, .park 7], ∀ r ∈ [none, some 7, some 9], ∀ s ∈ [wheel (fun v => { v with state := .homing, homing := some ⟨.order, r, h⟩ }) (queued [orderOf 0 (.strike strikeA) .executing, orderOf 1 .move] running)],
  OrdersOk s.seq ∧
      s.staysOn ∧ s.power.softReset = none ∧ s.executing = some (orderOf 0 (.strike strikeA) .executing) ∧
      s.faults.x = none ∧ s.faults.p = none ∧ s.levels.closed = true) := by decide

set_option synthInstance.maxSize 1000 in
set_option maxRecDepth 4000 in
theorem witness_wheelEvents_ends_2 :
    (∀ h ∈ [HomingPhase.search, .park 7], ∀ r ∈ [none, some 7, some 9], ∀ q ∈ [[], [orderOf 0 (.strike strikeA)]], ∀ s ∈ [seq (fun d => { d with recovery := { d.recovery with wheel := true } }) (wheel (fun v => { v with state := .homing, homing := some ⟨.resume, r, h⟩ }) (if q = [] then running else queued q running))],
  OrdersOk s.seq ∧
      s.staysOn ∧ s.power.softReset = none ∧ s.executing = none ∧ s.selfTest = none ∧ s.seq.recovery.wheel = true ∧
      s.faults.x = none ∧ s.faults.p = none ∧ s.seq.stage = [] ∧ ∀ o ∈ s.seq.queue, o.state = .queued ∧
      o.held = none) := by decide

set_option synthInstance.maxSize 1000 in
set_option maxRecDepth 4000 in
theorem witness_wheelEvents_ends_3 :
    (∀ h ∈ [HomingPhase.search, .park 7], ∀ r ∈ [none, some 7, some 9], ∀ s ∈ [({ wheel (fun v => { v with state := .homing, homing := some ⟨.selfTest, r, h⟩ }) running with selfTest := some { group := 5, step := 3, sub := 0, failed := [], position := none, wheel := r } } : State)],
  OrdersOk s.seq ∧
      s.staysOn ∧ s.power.softReset = none ∧ s.selfTest.map (·.step) = some 3 ∧ s.faults.x = none ∧
      s.faults.p = none ∧ s.levels.closed = true) := by decide

set_option synthInstance.maxSize 1000 in
set_option maxRecDepth 4000 in
theorem witness_platenLiftHammer_moves :
    (∀ k ∈ [OrderKind.feed 8, .ret 8, .paperLoad, .paperEject], ∀ n ∈ [5, 72], ∀ s ∈ [platen (fun p => { p with state := .feeding, remaining := n }) (queued [{ orderOf 0 k .executing with phase := .feeding }] running)],
  s.aside ∧
      s.staysOn ∧ OrdersOk s.seq ∧ s.platen.state = .feeding ∧ 4 < s.platen.remaining ∧ s.seq.liftToView = false ∧
      s.executing = some { orderOf 0 k .executing with phase := .feeding }) := by decide

set_option synthInstance.maxSize 1000 in
set_option maxRecDepth 4000 in
theorem witness_platenLiftHammer_moves_2 :
    (∀ n ∈ [0, 4], ∀ l ∈ [LiftState.held .print, .held .correct], ∀ s ∈ [lift (fun d => { d with state := l }) (seq (fun q => { q with liftToView := true }) (platen (fun p => { p with state := .feeding, remaining := n }) running))],
  s.aside ∧
      OrdersOk s.seq ∧ s.executing = none ∧ s.seq.liftToView = true ∧ s.platen.remaining ≤ 4 ∧
      s.hammer.state ≠ .on ∧ s.hammer.state ≠ .rest) := by decide

set_option synthInstance.maxSize 1000 in
set_option maxRecDepth 4000 in
theorem witness_platenLiftHammer_moves_3 :
    (∀ p ∈ [(OrderKind.strike strikeA, LiftTarget.print), (.wheelChange 9, .view), (.paperLoad, .view), (.move, .view)], ∀ s ∈ [lift (fun l => { l with state := .moving, target := p.2 }) (queued [orderOf 0 p.1 .executing] running)],
  s.aside ∧
      OrdersOk s.seq ∧ s.executing = some (orderOf 0 p.1 .executing) ∧ s.seq.liftToView = false ∧
      s.lift.state = .moving ∧ s.lift.viaView = false ∧ s.lift.target = p.2) := by decide

set_option synthInstance.maxSize 1000 in
set_option maxRecDepth 4000 in
theorem witness_platenLiftHammer_moves_4 :
    (∀ s ∈ [lift (fun l => { l with state := .moving, target := .view }) (queued [orderOf 0 (.strike strikeA) .executing] running)],
  s.aside ∧
      OrdersOk s.seq ∧ s.faults.x = none ∧ s.faults.p = none ∧ s.quiet ∧
      (orderOf 0 (.strike strikeA) .executing).nextFire ≠ none ∧ s.wheel.state ≠ .unknown ∧ s.lift.target = .view) := by decide

set_option synthInstance.maxSize 1000 in
set_option maxRecDepth 4000 in
theorem witness_platenLiftHammer_moves_5 :
    (∀ q ∈ [running, queued [orderOf 0 .move .prepared] running, seq (fun d => { d with state := .paused }) running], ∀ v ∈ [true, false], ∀ p ∈ [LiftTarget.view, .print, .correct], ∀ s ∈ [lift (fun l => { l with state := .moving, target := p, viaView := v, use := .viewTimer }) q],
  s.aside ∧
      OrdersOk s.seq ∧ s.executing = none ∧ s.seq.liftToView = false ∧ s.lift.state = .moving ∧ s.lift.target = p ∧
      s.lift.viaView = v) := by decide

set_option synthInstance.maxSize 1000 in
set_option maxRecDepth 4000 in
theorem witness_timerEvents_waits :
    (∀ s ∈ [platen (fun p => { p with state := .feeding, remaining := 8 }) running, hammer (fun h => { h with state := .on }) running, hammer (fun h => { h with state := .rest }) running, lift (fun l => { l with state := .moving }) running].map (seq fun q => { q with viewTimer := some 5 }),
  s.aside ∧
      OrdersOk s.seq ∧ s.executing = none ∧ s.seq.viewTimer.isSome = true ∧ s.power.state = .run ∧
      (¬ s.quiet ∨ s.lift.state = .moving)) := by decide

set_option synthInstance.maxSize 1000 in
set_option maxRecDepth 4000 in
theorem witness_homingsEnd_fails :
    (∀ i ∈ [Instr.homeStepLimit, .carriageMotionTimerExpiry], ∀ s ∈ [carriage (fun d => { d with state := .homing, rightwards := true, use := .startUp }) (starting .carriage)],
  homesAlone s ∧
      s.power.startUp = some .carriage ∧ s.carriage.use = .startUp ∧ s.carriage.failsAt i = true) ∧
    (∀ i ∈ [Instr.homeStepLimit, .carriageMotionTimerExpiry], ∀ s ∈ [carriage (fun d => { d with state := .homing, rightwards := true, use := .wake }) (power (fun w => { w with wake := some { carriage := .running, wheel := .done, position := 120, faults := [] } }) (resting .sleep running)),
    carriage (fun d => { d with state := .homing, rightwards := true, use := .softReset }) (seq (fun q => { q with state := .stopped }) (power (fun w => { w with softReset := some { carriage := .running, wheel := .done } }) running))],
  homesAlone s ∧
      s.carriage.failsAt i = true) := by decide

set_option synthInstance.maxSize 1000 in
set_option maxRecDepth 4000 in
theorem witness_homingsEnd_fails_2 :
    (∀ p ∈ [(HomingPhase.read 10 [], Instr.indexMark 10), (.read 10 (List.replicate 7 true), .codeMark 15)],
  ∀ s ∈ [wheel (fun v => { v with state := .homing, homing := some ⟨.startUp, none, p.1⟩ }) (starting .wheel),
    wheel (fun v => { v with state := .homing, homing := some ⟨.wake, some 5, p.1⟩ }) (power (fun w => { w with wake := some { carriage := .done, wheel := .running, position := 120, faults := [] } }) (resting .standby running)),
    wheel (fun v => { v with state := .homing, homing := some ⟨.softReset, none, p.1⟩ }) (seq (fun q => { q with state := .stopped }) (power (fun w => { w with softReset := some { carriage := .done, wheel := .running } }) running))],
  homesAlone s ∧
      s.wheel.state = .homing ∧ (s.wheel.homing.bind fun h => h.failsAt p.2) = some .wheelHomeFail) := by decide

set_option synthInstance.maxSize 1000 in
set_option maxRecDepth 4000 in
theorem witness_wheelEvents_test :
    (∀ u ∈ [HomingUse.cover, .recovery], ∀ s ∈ [({ wheel (fun v => { v with state := .homing, homing := some ⟨u, none, .search⟩ }) running with selfTest := some { group := 5, step := 3, sub := 0, failed := [], position := none, wheel := some 7 } } : State)],
  OrdersOk s.seq ∧
      s.staysOn ∧ s.power.softReset = none ∧ s.wheel.state = .homing ∧ s.levels.closed = true ∧ u ≠ .selfTest ∧
      s.selfTest.map (fun k => (k.step, k.sub)) = some (3, 0) ∧
  (∀ h ∈ s.wheel.homing, h.failsAt .wheelSearchLimit = some .wheelHomeFail) ∧
      (∀ k ∈ s.selfTest, k.step ≠ 2)) := by decide

/-! ## States for the clauses on the ends of a lift move, on the words of a letter and on a full memory -/

set_option synthInstance.maxSize 1000 in
set_option maxRecDepth 4000 in
theorem witness_recordsRead_off :
    (∀ s ∈ [resting .deepOff running, power (fun w => { w with deepOff := some .replying }) running,
      power (fun w => { w with deepOff := some .lifting }) running],
    s.link.replies.length < 8 ∧ (s.power.state = .deepOff ∨ s.power.deepOff ≠ none)) := by decide

/-- A word between apostrophes, and a code that is no letter (O28). -/
theorem witness_userWordList_fold :
    (∃ g ∈ [(0x61 : Byte), 0x31], letterCode g = none) ∧
    [(0x27 : Byte), 0x41, 0x62, 0x27].map letterCode =
      (List.replicate 1 27 ++ [1, 2] ++ List.replicate 1 27).map some ∧
    [1, 2].head? ≠ some 27 ∧ [1, 2].getLast? ≠ some 27 := by decide

set_option synthInstance.maxSize 1000 in
set_option maxRecDepth 4000 in
theorem witness_flushRequest_nothing :
    (∀ s ∈ [running, faulted .liftStall running,
      { seq (fun q => { q with state := .faulted }) running with
        faults := { p := some ⟨.coverOpen, none, 0, none, none, false, none, 0, []⟩ } }],
    s.hears ∧ s.power.state = .run ∧ s.seq.state ≠ .stopped ∧ s.selfTest = none ∧ s.power.wake = none ∧
      s.power.entering = none ∧ s.power.startUp = none ∧ s.power.softReset = none ∧ NumbersOk s.seq ∧
      s.seq.queue = [] ∧ s.seq.stage = []) := by decide

/-- A FLUSH with nothing to discard, of a P fault, leaves the composition wheel (R173); of an X fault, written outside an
order, it makes it the mounted one (R57, R102; log 106). -/
theorem test_flush_nothing :
    let other (s : State) : State := comp (fun c => { c with wheel := some 9 }) s
    (after (exec .flush (other { running with
      faults := { p := some ⟨.coverOpen, none, 0, none, none, false, none, 0, []⟩ } }))).comp.wheel = some 9 ∧
    (after (exec .flush (other (faulted .liftStall running)))).comp.wheel = some 7 := by decide +kernel

/-- Step 6 of a self-test whose steps in a list have failed. -/
def testingHeader (failed : List Nat) : State :=
  { running with
    port := { current := some ⟨0, 15, .testHeader⟩, timer := some 5000 }
    selfTest := some { group := 5, step := 6, sub := 1, failed := failed, position := none, wheel := some 7 } }

set_option synthInstance.maxSize 1000 in
set_option maxRecDepth 4000 in
theorem witness_flashReads_test :
    (∀ failed ∈ [[], [1, 3, 5]], ∀ s ∈ [testingHeader failed], s.power.state = .run ∧ s.power.wake = none ∧
      s.executing = none ∧ s.seq.recovery = {} ∧ s.power.softReset = none ∧ s.power.entering = none ∧
      s.power.startUp = none ∧ s.power.deepOff = none ∧ s.port.current = some ⟨0, 15, .testHeader⟩ ∧
      6 ∉ failed ∧ s.selfTest.map (fun k => (k.step, k.sub, k.failed)) = some (6, 1, failed)) := by decide

/-- R176: code 05 of a header read that times out comes last, and code 06 of the two lift steps once. -/
theorem test_flashReadTimeout_test :
    (after (exec .flashReadTimeout (testingHeader []))).link.notices = [.done 5 .selfTest .complete 0 [5]] ∧
    (after (exec .flashReadTimeout (testingHeader [1, 3, 5]))).link.notices =
      [.done 5 .selfTest .complete 0 [6, 3, 5]] := by decide +kernel

/-- On the way to DEEP_OFF with the lift moving, with and without a WAKE taken (O39). -/
def liftingOff (waken : Bool) : State :=
  lift (fun l => { l with state := .moving, target := .view, use := .deepOff })
    (power (fun w => { w with deepOff := some .lifting, wakeAfterOff := waken }) running)

set_option synthInstance.maxSize 1000 in
set_option maxRecDepth 4000 in
theorem witness_offAndWake_lifting :
    (∀ waken : Bool, (liftingOff waken).power.state = .run ∧ (liftingOff waken).power.deepOff = some .lifting ∧
      (liftingOff waken).lift.state = .moving ∧ (liftingOff waken).power.wakeAfterOff = waken ∧
      (liftingOff waken).lift.target = .view ∧ (liftingOff waken).lift.viaView = false ∧
      (liftingOff waken).executing = none ∧ (liftingOff waken).selfTest = none) := by decide

/-- The letter a at the head of the key queue: with a current word, behind a cell of a word, and with neither (O42). -/
def letterKeyed : List State :=
  let behind := comp (fun c => { c with
    line := [{ cellAt 120 (.glyph 0x62) (.onPaper none) with word := some 3 }], cursor := 132, index := 1 })
  [keyed 0x61 (comp (fun c => { c with word := some 4 }) running), keyed 0x61 (behind running), keyed 0x61 running]

set_option synthInstance.maxSize 1000 in
set_option maxRecDepth 4000 in
theorem witness_printableKeys_words :
    (∀ s ∈ letterKeyed, s.composes ∧ s.set.mode = .direct ∧ s.takesOrders 1 ∧ NumbersOk s.seq ∧
      s.comp.cursor + 12 ≤ s.set.right ∧ s.comp.line.length < 200) ∧
    letterKeyed.map (·.comp.word) = [some 4, none, none] := by decide

/-- R7: the current word, the word of the cell that ends at the cursor, a new word. -/
theorem test_printableKey_words :
    letterKeyed.map (fun s => (after (exec .printableKey s)).comp.word) = [some 4, some 3, some 0] := by decide +kernel

set_option synthInstance.maxSize 1000 in
set_option maxRecDepth 4000 in
theorem witness_wheelEvents_stageHeld :
    (∀ phase ∈ [HomingPhase.park 9, .search],
      ∀ s ∈ [seq (fun q => { q with
          stageState := .held, stage := [{ orderOf 0 .move with group := 3 }], nextOrder := 9, recovery := { wheel := true } })
        (wheel (fun v => { v with state := .homing, homing := some ⟨.resume, some 7, phase⟩ }) running)],
    OrdersOk s.seq ∧ s.staysOn ∧ s.power.softReset = none ∧ s.wheel.state = .homing ∧ s.levels.closed = true ∧
      s.executing = none ∧ s.selfTest = none ∧ s.seq.recovery.wheel = true ∧ s.seq.queue = [] ∧
      s.faults.x = none ∧ s.faults.p = none ∧
      (∀ h ∈ s.wheel.homing, h.ends 9 (decide (s.seq.queue = [] ∧ s.seq.stage = [])) = .mismatch)) := by decide

/-- The entry into a resting state while its lift move runs (O55). -/
def enteringRest (r : Rest) : State :=
  lift (fun l => { l with state := .moving, target := .view, use := .entry })
    (power (fun w => { w with entering := some r }) running)

set_option synthInstance.maxSize 1000 in
set_option maxRecDepth 4000 in
theorem witness_timerEvents_entering :
    (∀ r ∈ [Rest.standby, .sleep], ∀ s ∈ [enteringRest r], OrdersOk s.seq ∧ s.power.entering = some r ∧
      ({ s with power := { s.power with entering := none } } : State).aside ∧ s.power.state = .run ∧ s.comp.keys = [] ∧
      s.seq.queue = [] ∧ s.seq.stageState = .empty ∧ s.seq.state = .idle ∧ s.faults.x = none ∧ s.faults.p = none ∧
      s.wheel.homing = none ∧ s.power.conditions = true ∧ s.power.timer = none ∧ s.lift.state = .moving ∧
      s.lift.target = .view ∧ s.lift.viaView = false ∧ s.lift.use ≠ .deepOff) := by decide

/-- R181: a stall gives the entry up, of a move that the entry took over from the view timer too. -/
theorem test_liftTimerExpiry_entry :
    let t := after (exec .liftTimerExpiry (lift (fun l => { l with use := .viewTimer }) (enteringRest .sleep)))
    t.power.entering = none ∧ t.power.state = .run ∧ t.faults.x.map (·.kind) = some .liftStall := by decide +kernel

/-- A full correction memory, one record in each slot in order. -/
def fullMemory : Memory :=
  { records := (List.range 512).map fun k =>
      ⟨k, 0, 0, 120, some 0x61, some 64, none, 7, 12, 1100, [⟨.glyph, 120, some 64⟩], [.glyph], [], none⟩ }

theorem witness_hammerFires_fullMemory : MemoryOk fullMemory ∧ fullMemory.records.length = 512 := by
  have slots : fullMemory.records.map (·.slot) = List.range 512 := by
    simp only [fullMemory, List.map_map, Function.comp_def, List.map_id']
  refine ⟨⟨by simp [fullMemory], slots ▸ List.nodup_range, fun r hr => ?_⟩, by simp [fullMemory]⟩
  exact List.mem_range.mp (slots ▸ List.mem_map_of_mem hr)

/-- A STRIKE in place, with a LIFT behind it and a cell that refer to the oldest record of a full memory (O56). -/
def fullStrike : State :=
  { comp (fun c => { c with line := [cellAt 120 (.glyph 0x61) (.onPaper (some 0))], cursor := 132, index := 1 })
      (queued [orderOf 0 (.strike strikeA) .prepared, orderOf 1 (.lift (.record 0))]
        (wheel (fun v => { v with petal := some 64 }) (lift (fun l => { l with state := .held .print }) running))) with
    memory := fullMemory }

set_option synthInstance.maxSize 1000 in
set_option maxRecDepth 4000 in
theorem witness_hammerFires_full :
    (∀ s ∈ [fullStrike], s.aside ∧ s.sequences ∧
      s.seq.queue = [orderOf 0 (.strike strikeA) .prepared, orderOf 1 (.lift (.record 0))] ∧
      s.carriage.state = .idle ∧ s.wheel.state = .settled ∧ s.carriage.position = 120 ∧ s.wheel.petal = some 64 ∧
      s.lift.state = .held .print ∧ s.platen.state ≠ .feeding ∧ s.levels.closed = true ∧ s.hammer.state = .ready) := by
  decide

/-- R107, R108, R111: the new record takes slot 0, at the end; the cell and the LIFT lose the old one, and the stale LIFT
is dropped when the prepare stage reaches it. -/
theorem test_orderStart_evicts :
    let t := after (exec .orderStart fullStrike)
    t.memory.records.map (·.slot) = (List.range 511).map (· + 1) ++ [0] ∧
    t.comp.line.map (·.origin) = [.onPaper none] ∧ t.seq.queue.map (·.kind.name) = [.strike] := by decide +kernel

end Sys2Proof.Tests
end

section
set_option Elab.async false

namespace Sys2Proof.Machine

/-! ## Requests that only report (R189, R190) -/

/-- With the outgoing line as it was, an operation's reply simply joins the reply list: no notice competes with it. -/
theorem reply_eq_joinReply {op : Engine → List Byte × Engine} {e f : Engine} {payload : List Byte} (typ : Byte)
    (hop : op e = (payload, f)) (hlink : f.link = e.link) : e.reply typ op = f.joinReply typ payload false := by
  have htx : (e.link.tx.isNone && f.link.tx.isSome) = false := by
    rw [hlink]
    cases e.link.tx <;> rfl
  simp only [Engine.reply, hop, htx, Bool.false_and, Bool.false_eq_true, if_false]

/-- A request with room in the reply list, while the part is on or for a request that is answered off too, acts. -/
theorem answer_eq_reply {off : Bool} {op : Engine → List Byte × Engine} {e : Engine} (typ : Byte)
    (room : e.link.replies.length < 8) (on : off = true ∨ (e.power.state ≠ .deepOff ∧ e.power.deepOff = none)) :
    e.answer typ true plainRefusal off op = e.reply (typ + 0x40) op := by
  have hoff : ¬ ((e.power.state = .deepOff ∨ e.power.deepOff.isSome) ∧ off = false) := by
    rcases on with rfl | ⟨hs, hd⟩
    · simp
    · simp [hs, hd]
  simp only [Engine.answer, Engine.checked, Nat.not_le.2 room, hoff, Bool.not_true, Bool.false_eq_true, if_false]

/-- A request whose operation leaves the link alone: its reply joins, and nothing else changes but what the operation
changes. -/
theorem exec_answers {i : Instr} {s : State} {typ : Byte} {off : Bool} {op : Engine → List Byte × Engine} {f : Engine}
    {payload : List Byte} {xs : List Piece}
    (hx : exec i s = .next (s.on fun e => (e.answer typ true plainRefusal off op).refresh))
    (room : s.link.replies.length < 8) (on : off = true ∨ (s.power.state ≠ .deepOff ∧ s.power.deepOff = none))
    (hop : op s.toEngine = (payload, f)) (hlink : f.link = s.link) (hf : Same xs s.toEngine f) :
    ∃ t, exec i s = .next t ∧ t.link = s.link.replied (typ + 0x40) payload ∧ t.esc = f.esc ∧
      Keeps (.outgoing :: xs) s t := by
  have heq : s.toEngine.answer typ true plainRefusal off op = f.joinReply (typ + 0x40) payload false :=
    (answer_eq_reply typ room on).trans (reply_eq_joinReply _ hop hlink)
  refine ⟨_, hx, ?_, ?_, rfl, ?_⟩
  · simp only [State.on, heq, Engine.refresh_link, Engine.joinReply_link, hlink, Link.replied]
  · simp only [State.on, heq, Engine.refresh_esc, Engine.joinReply_esc]
  · simp only [State.on, heq]
    have joined : Same (.outgoing :: xs) s.toEngine (f.joinReply (typ + 0x40) payload false) :=
      hf.next (joinReply_same _ _ _ f) (List.subset_cons_self _ _) (by simp)
    exact joined.trans ((refresh_same _).mono (List.nil_subset _))

/-- A request that is answered from the state and changes nothing: the reply is its only trace. -/
theorem exec_reports {i : Instr} {s : State} {typ : Byte} {off : Bool} {op : Engine → List Byte × Engine}
    {payload : List Byte} (hx : exec i s = .next (s.on fun e => (e.answer typ true plainRefusal off op).refresh))
    (hears : s.hears) (hop : op s.toEngine = (payload, s.toEngine)) :
    ∃ t, exec i s = .next t ∧ t.link = s.link.replied (typ + 0x40) payload ∧ Keeps [.outgoing] s t := by
  obtain ⟨room, on⟩ := hears
  obtain ⟨t, ht, hlink, -, keeps⟩ := exec_answers hx room (.inr on) hop rfl (.refl [] _)
  exact ⟨t, ht, hlink, keeps⟩

/-! ## The bytes of the layouts -/

theorem twoBytes_toNat (h : Half) : twoBytes h.toNat = halfBytes h := by
  have high : byteOf (h.toNat / 256) = h.extractLsb' 8 8 := by
    apply BitVec.eq_of_toNat_eq
    simp [byteOf, Nat.shiftRight_eq_div_pow]
  have low : byteOf h.toNat = h.extractLsb' 0 8 := by
    apply BitVec.eq_of_toNat_eq
    simp [byteOf]
  simp only [twoBytes, halfBytes, high, low]

theorem bitOf_mul (n : Nat) (b : Bool) : n * bitOf b = if b = true then n else 0 := by
  cases b <;> simp [bitOf]

theorem targetBytes_eq (t : Option (Nat × VPos)) : targetBytes t = (match t with
    | some (h, v) => twoBytes h ++ halfBytes v
    | none => [0, 0, 0, 0]) := by
  rcases t with _ | ⟨h, v⟩
  · rfl
  · simp only [targetBytes, twoBytes_toNat]

theorem slotHead_eq (f : FaultSlot) : slotHead f =
    [byteOf f.kind.code, byteOf (orderCode f.order + if f.afterHammer then 128 else 0), byteOf f.group, f.glyph.getD 0] ++
    (match f.target with
      | some (h, v) => twoBytes h ++ halfBytes v
      | none => [0, 0, 0, 0]) := by
  rw [slotHead, targetBytes_eq, orderFlagByte, bitOf_mul]
  rfl

/-- The status record with its packed bytes written out (layouts). -/
theorem statusBytes_eq (power : PowerState) (levels : Byte) (e : Engine) : e.statusBytes power levels =
    [0x00, power.code, e.seq.state.code, byteOf e.comp.keys.length, byteOf e.seq.queue.length, e.seq.stageState.code] ++
    slotBytes e.faults.x ++ slotBytes e.faults.p ++ [idByte e.wheel.mounted, idByte e.comp.wheel] ++
    twoBytes e.carriage.position ++ halfBytes e.platen.position ++ twoBytes e.comp.cursor ++
    [byteOf (e.esc.current.bits + 16 * e.esc.accrued.bits), byteOf e.suspectCount, e.spell.dict.code,
      byteOf (pendingCode e.power.pendingEntry + if e.power.wake.isSome then 128 else 0), levels] := by
  rw [Engine.statusBytes, twoBytes_toNat, bitOf_mul]
  rfl

/-- The identity record with the flash size as its two bytes (layouts). -/
theorem identityBytes_eq (e : Engine) : e.identityBytes =
    [0x00, 0x12, 0x0C, Config.siliconRevision, 64, 32] ++ twoBytes 512 ++ [64, 4, 80, e.spell.dict.code] ++
    threeBytes e.spell.wordCount ++ twoBytes e.spell.bucketCount ++ e.slots.map (·.reported) ++
    halfBytes e.port.flashSize := by
  rw [Engine.identityBytes, twoBytes_toNat]
  rfl

/-- The context with the BIDI bit written out (layouts). -/
theorem contextBytes_eq (e : Engine) : e.contextBytes =
    [byteOf (128 * e.set.mode.code + 32 * e.set.align.code + 8 * e.set.distribute.code + 2 * e.set.spell.code +
        if e.set.bidi then 1 else 0),
      byteOf (32 * e.set.pitch.code + 8 * e.set.impression + e.set.spacing / 4), byteOf e.set.bellZone,
      idByte e.comp.wheel] ++
    twoBytes e.set.left ++ twoBytes e.set.right ++ twoBytes e.comp.cursor ++
    [byteOf e.set.tabs.length] ++ packTabs e.set.tabs := rfl

/-- Every five bits are the byte of some sensor levels. -/
theorem exists_levels_byte : ∀ b : BitVec 5, ∃ l : Levels, l.byte = b.setWidth 8 := by
  have h : ∀ b : BitVec 5, (⟨b.getLsbD 0, b.getLsbD 1, b.getLsbD 2, b.getLsbD 3, b.getLsbD 4⟩ : Levels).byte =
      b.setWidth 8 := by decide
  exact fun b => ⟨_, h b⟩

/-! ## What the record requests answer -/

/-- STATUS as a request, without and with clear accrued. -/
theorem exec_status (s : State) : exec .status s =
    .next (s.on fun e => (e.answer 0x0E true plainRefusal true (Engine.opStatus false)).refresh) := rfl

theorem exec_statusClearAccrued (s : State) : exec .statusClearAccrued s =
    .next (s.on fun e => (e.answer 0x0E true plainRefusal true (Engine.opStatus true)).refresh) := rfl

theorem exec_identify (s : State) : exec .identify s =
    .next (s.on fun e => (e.answer 0x0F true plainRefusal false Engine.opIdentify).refresh) := rfl

theorem exec_saveContext (s : State) : exec .saveContext s =
    .next (s.on fun e => (e.answer 0x11 true plainRefusal false Engine.opSave).refresh) := rfl

/-- A carriage that is neither moving nor homing is read as it stands. -/
theorem readCounter_at_rest {e : Engine} (hm : e.carriage.state ≠ .moving) (hh : e.carriage.state ≠ .homing) :
    e.readCounter = e := by
  unfold Engine.readCounter
  split <;> first | rfl | contradiction

/-- STATUS of a part that is on, with the carriage at rest. -/
theorem opStatus_on {e : Engine} (clear : Bool) (on : e.power.state ≠ .deepOff ∧ e.power.deepOff = none)
    (hm : e.carriage.state ≠ .moving) (hh : e.carriage.state ≠ .homing) :
    e.opStatus clear =
      (e.statusBytes e.power.state e.levels.byte, if clear then { e with esc := e.esc.clear } else e) := by
  have hoff : e.goingOff = false := by simp [Engine.goingOff, on]
  simp only [Engine.opStatus, hoff, Bool.false_eq_true, if_false, readCounter_at_rest hm hh]

/-- The record of the hard reset values, with the levels given (R182). -/
theorem statusBytes_cold (pins : Pins) (levels : Byte) : (Engine.cold pins).statusBytes .deepOff levels =
    [0x00, 0x04] ++ List.replicate 18 0x00 ++ [0x00, 0x78, 0x00, 0x00, 0x01, 0x00, levels] := by
  have zero : twoBytes 0 = [0x00, 0x00] := by decide
  have margin : twoBytes 120 = [0x00, 0x78] := by decide
  have carriage : twoBytes (Engine.cold pins).carriage.position = [0x00, 0x00] := zero
  have platen : twoBytes (Engine.cold pins).platen.position.toNat = [0x00, 0x00] := zero
  have cursor : twoBytes (Engine.cold pins).comp.cursor = [0x00, 0x78] := margin
  rw [Engine.statusBytes, carriage, platen, cursor]
  rfl

/-- STATUS of a part that is off or on its way there: the hard reset record, but for the levels. -/
theorem opStatus_off {e : Engine} (clear : Bool) (off : e.power.state = .deepOff ∨ e.power.deepOff ≠ none) :
    e.opStatus clear = ([0x00, 0x04] ++ List.replicate 18 0x00 ++
      [0x00, 0x78, 0x00, 0x00, 0x01, 0x00, (Config.deepOffLevels e.free).setWidth 8], { e with free := e.free + 1 }) := by
  have hoff : e.goingOff = true := by simpa [Engine.goingOff, Option.isSome_iff_ne_none] using off
  simp only [Engine.opStatus, hoff, if_true, statusBytes_cold]

theorem empty_iff (f : FaultRecord) : f.empty = true ↔ f.x = none ∧ f.p = none := by
  simp [FaultRecord.empty]

theorem opSave_null {e : Engine} (hx : e.faults.x = none) (hp : e.faults.p = none) (hc : e.comp.composed = false) :
    e.opSave = ([0x00, 0x00], e) := by
  simp only [Engine.opSave, (empty_iff _).2 ⟨hx, hp⟩, hc]
  rfl

theorem opSave_idle {e : Engine} (hx : e.faults.x = none) (hp : e.faults.p = none) (hc : e.comp.composed = true) :
    e.opSave = (0x00 :: 0x01 :: e.contextBytes, e) := by
  simp only [Engine.opSave, (empty_iff _).2 ⟨hx, hp⟩, hc]
  rfl

theorem opSave_busy {e : Engine} (h : e.faults.x ≠ none ∨ e.faults.p ≠ none) :
    e.opSave = (0x00 :: 0x02 :: e.contextBytes ++ xSlotBytes e.faults.x ++ pSlotBytes e.faults.p, e) := by
  have hne : e.faults.empty = false := by
    rw [Bool.eq_false_iff, ne_eq, empty_iff]
    tauto
  simp only [Engine.opSave, hne]
  rfl

/-- The accrued flags cleared: no other part changes. -/
theorem withEsc_same (x : Escapement) (e : Engine) : Same [.lineFlags] e { e with esc := x } := by
  intro p hp
  cases p
  case lineFlags => exact absurd (by decide) hp
  all_goals simp [Piece.same]

end Sys2Proof.Machine

namespace Sys2Proof

open Sys2Proof.Machine

/-- Settles O32: each record is its operation's payload, and an operation that leaves the link alone changes nothing
else but what it says (`exec_answers`). -/
theorem recordsRead : Obligations.RecordsRead := by
  unfold Obligations.RecordsRead
  refine ⟨fun s room off i hi => ?_, fun s hears hm hh => ?_⟩
  · have status : ∀ clear, exec i s =
        .next (s.on fun e => (e.answer 0x0E true plainRefusal true (Engine.opStatus clear)).refresh) → ∃ t, ∃ l : Levels,
        exec i s = .next t ∧ t.link = s.link.replied 0x4E ([0x00, 0x04] ++ List.replicate 18 0x00 ++
          [0x00, 0x78, 0x00, 0x00, 0x01, 0x00, l.byte]) ∧ Keeps [.outgoing, .openValues] s t := fun clear hx => by
      obtain ⟨l, hl⟩ := exists_levels_byte (Config.deepOffLevels s.free)
      obtain ⟨t, ht, hlink, -, keeps⟩ := exec_answers hx room (.inl rfl) (opStatus_off clear off) rfl (withFree_same _ _)
      exact ⟨t, l, ht, hl ▸ hlink, keeps⟩
    simp only [List.mem_cons, List.not_mem_nil, or_false] at hi
    rcases hi with rfl | rfl
    · exact status false (exec_status s)
    · exact status true (exec_statusClearAccrued s)
  · have ⟨room, on⟩ := hears
    have status := exec_reports (exec_status s) hears (opStatus_on false on hm hh)
    have clear := exec_answers (exec_statusClearAccrued s) room (.inl rfl) (opStatus_on true on hm hh) rfl (withEsc_same _ _)
    have identify := exec_reports (exec_identify s) hears (op := Engine.opIdentify) rfl
    have save := fun {payload} => exec_reports (payload := payload) (exec_saveContext s) hears
    rw [statusBytes_eq] at status clear
    rw [identityBytes_eq] at identify
    refine ⟨status, ?_, identify, fun hx hp hc => save (opSave_null hx hp hc), fun hx hp hc => ?_, fun hf => ?_⟩
    · obtain ⟨t, ht, hlink, hesc, keeps⟩ := clear
      exact ⟨t, ht, hlink, hesc, keeps⟩
    · exact save (contextBytes_eq s.toEngine ▸ opSave_idle hx hp hc)
    · have busy := save (opSave_busy hf)
      simp only [contextBytes_eq, xSlotBytes, pSlotBytes, slotHead_eq] at busy
      exact busy

end Sys2Proof
end

section
set_option Elab.async false

namespace Sys2Proof.Machine

/-! ## The line without its outer spaces (R29) -/

theorem dropWhile_append_of_head {α : Type} {p : α → Bool} {pre l : List α} (hpre : ∀ a ∈ pre, p a = true)
    (hl : ∀ a, l.head? = some a → p a = false) : (pre ++ l).dropWhile p = l := by
  rw [List.dropWhile_append_of_pos hpre]
  cases l with
  | nil => rfl
  | cons a l => exact List.dropWhile_cons_of_neg (by simp [hl a rfl])

theorem trimLine_append {before line behind : List Cell} (hs : ∀ c ∈ before ++ behind, c.plainSpace = true)
    (hh : ∀ c, line.head? = some c → c.plainSpace = false)
    (hl : ∀ c, line.getLast? = some c → c.plainSpace = false) : trimLine (before ++ line ++ behind) = line := by
  have hbefore : ∀ c ∈ before, c.plainSpace = true := fun c hc => hs c (List.mem_append_left _ hc)
  have hbehind : ∀ c ∈ behind.reverse, c.plainSpace = true := fun c hc =>
    hs c (List.mem_append_right _ (List.mem_reverse.1 hc))
  unfold trimLine
  rcases line.eq_nil_or_concat' with rfl | ⟨init, last, rfl⟩
  · have hall : (before ++ [] ++ behind).dropWhile Cell.plainSpace = [] :=
      List.dropWhile_eq_nil_iff.2 (by simpa using hs)
    rw [hall]
    rfl
  · have front : (before ++ (init ++ [last]) ++ behind).dropWhile (·.plainSpace) = init ++ [last] ++ behind := by
      rw [List.append_assoc before]
      exact dropWhile_append_of_head hbefore fun c hc => hh c (by cases init <;> simpa using hc)
    rw [front, List.reverse_append, dropWhile_append_of_head hbehind fun c hc => hl c (by simpa using hc),
      List.reverse_reverse]

/-! ## Cells one behind another, with wider gaps (R35, R36) -/

/-- The number of gaps among some cells (R29). -/
def gapCount (cells : List Cell) : Nat := (cells.filter (·.plainSpace)).length

theorem length_gapWidths (cells : List Cell) : (gapWidths cells).length = gapCount cells := by
  simp [gapWidths, gapCount]

theorem gapCount_cons (c : Cell) (cs : List Cell) :
    gapCount (c :: cs) = (if c.plainSpace then 1 else 0) + gapCount cs := by
  cases h : c.plainSpace <;> simp [gapCount, h, Nat.add_comm]

/-- A placed cell's width, behind `k` gaps. -/
def Cell.widened (extra : Nat → Nat) (k : Nat) (c : Cell) : Nat := c.width + if c.plainSpace then extra (k + 1) else 0

theorem placeCells_cons (extra : Nat → Nat) (x k : Nat) (c : Cell) (cs : List Cell) :
    placeCells extra x k (c :: cs) = { c with start := x, width := c.widened extra k } ::
      placeCells extra (x + c.widened extra k) (k + if c.plainSpace then 1 else 0) cs := by
  cases h : c.plainSpace <;> simp [placeCells, Cell.widened, h, Nat.add_assoc]

/-- Placing changes starts and widths alone. -/
theorem placeCells_forms (extra : Nat → Nat) (x k : Nat) (cells : List Cell) :
    (placeCells extra x k cells).map (fun c => { c with start := 0, width := 0 }) =
      cells.map (fun c => { c with start := 0, width := 0 }) := by
  induction cells generalizing x k with
  | nil => rfl
  | cons c cs ih => simp only [placeCells_cons, List.map_cons, ih]

/-- Each placed cell starts where the cells before it end, and a gap is wider by the share of its number. -/
theorem placeCells_getElem? {extra : Nat → Nat} {cells : List Cell} {x k i : Nat} {c d : Cell}
    (hc : cells[i]? = some c) (hd : (placeCells extra x k cells)[i]? = some d) :
    d.start = x + (((placeCells extra x k cells).take i).map (·.width)).sum ∧
    d.width = c.width + if c.plainSpace then extra (k + gapCount (cells.take (i + 1))) else 0 := by
  induction cells generalizing x k i with
  | nil => simp at hc
  | cons b cs ih =>
    rw [placeCells_cons] at hd ⊢
    cases i with
    | zero =>
      obtain rfl : b = c := by simpa using hc
      obtain rfl := Option.some.inj hd
      refine ⟨rfl, ?_⟩
      cases h : b.plainSpace <;> simp [Cell.widened, gapCount, h]
    | succ i =>
      obtain ⟨hstart, hwidth⟩ := ih (by simpa using hc) (by simpa using hd)
      rw [List.take_succ_cons, List.take_succ_cons, gapCount_cons, List.map_cons, List.sum_cons, ← Nat.add_assoc,
        ← Nat.add_assoc]
      exact ⟨hstart, hwidth⟩

/-- The width of the placed cells: their own, and the shares of their gaps. -/
theorem placeCells_total (extra : Nat → Nat) (x k : Nat) (cells : List Cell) :
    ((placeCells extra x k cells).map (·.width)).sum =
      naturalWidth cells + ∑ j ∈ Finset.range (gapCount cells), extra (k + j + 1) := by
  induction cells generalizing x k with
  | nil => rfl
  | cons c cs ih =>
    have hw : naturalWidth (c :: cs) = c.width + naturalWidth cs := by simp [naturalWidth]
    rw [placeCells_cons, List.map_cons, List.sum_cons, ih, gapCount_cons, hw]
    cases h : c.plainSpace
    · simp [Cell.widened, h]
      omega
    · have shift : ∀ j, extra (k + 1 + j + 1) = extra (k + (j + 1) + 1) := fun j => by congr 1; omega
      simp only [Cell.widened, h, if_true, Nat.add_comm 1, Finset.sum_range_succ', shift, Nat.add_zero]
      omega

/-- Every placed cell ends at or left of the end of the last one. -/
theorem placeCells_ends (extra : Nat → Nat) (x k : Nat) (cells : List Cell) :
    ∀ c ∈ placeCells extra x k cells, c.start + c.width ≤ x + ((placeCells extra x k cells).map (·.width)).sum := by
  induction cells generalizing x k with
  | nil => simp [placeCells]
  | cons b cs ih =>
    rw [placeCells_cons, List.map_cons, List.sum_cons]
    intro c hc
    rcases List.mem_cons.1 hc with rfl | hc
    · exact Nat.add_le_add_left (Nat.le_add_right _ _) _
    · exact (ih _ _ c hc).trans (Nat.add_assoc _ _ _).le

/-! ## The shares of the gaps (R35) -/

/-- The shares of all gaps give out the remainder, but under TRUNCATE. -/
theorem sum_gapShare (d : Distribute) {r g : Nat} (hg : 0 < g) (hr : r ≤ g) :
    ∑ j ∈ Finset.range g, gapShare d (j + 1) r g = if d = .truncate then 0 else r := by
  cases d with
  | leading =>
    have first : (Finset.range g).filter (fun j => j + 1 ≤ r) = Finset.range r := by
      ext j
      simp only [Finset.mem_filter, Finset.mem_range]
      omega
    simp only [gapShare, Finset.sum_boole, first, Finset.card_range, Nat.cast_id, reduceCtorEq, if_false]
  | trailing =>
    have last : (Finset.range g).filter (fun j => g < j + 1 + r) = Finset.Ico (g - r) g := by
      ext j
      simp only [Finset.mem_filter, Finset.mem_range, Finset.mem_Ico]
      omega
    simp only [gapShare, Finset.sum_boole, last, Nat.card_Ico, Nat.sub_sub_self hr, Nat.cast_id, reduceCtorEq, if_false]
  | spread =>
    have mono : Monotone fun j => j * r / g := fun a b h => Nat.div_le_div_right (Nat.mul_le_mul_right r h)
    simpa [gapShare, Nat.mul_div_cancel_left r hg] using Finset.sum_range_tsub mono g
  | truncate => simp [gapShare]

/-- TRAILING by the gaps that it leaves out. -/
theorem gapShare_eq (d : Distribute) {i r g : Nat} (hr : r ≤ g) : gapShare d i r g = (match d with
    | .leading => if i ≤ r then 1 else 0
    | .trailing => if g - r < i then 1 else 0
    | .spread => i * r / g - (i - 1) * r / g
    | .truncate => 0) := by
  cases d with
  | trailing =>
    have h : g < i + r ↔ g - r < i := by omega
    simp only [gapShare, h]
  | leading => rfl
  | spread => rfl
  | truncate => rfl

/-! ## The release computation in one equation (R30 to R36) -/

/-- The line is no wider than the measure (R30, R31). -/
abbrev Settings.fits (set : Settings) (line : List Cell) : Prop := naturalWidth line ≤ set.right - set.left

/-- The extra space of a line that fits (R30). -/
abbrev Settings.extra (set : Settings) (line : List Cell) : Nat := set.right - set.left - naturalWidth line

/-- JUSTIFY applies (R33). -/
abbrev Settings.widens (set : Settings) (final : Bool) (line : List Cell) : Prop :=
  set.align = .justify ∧ final = false ∧ 0 < (gapWidths line).length ∧ set.fits line

/-- The widest that a gap may grow by: three times the narrowest gap (R34). -/
abbrev gapLimit (line : List Cell) : Nat := 3 * (gapWidths line).min?.getD 0

/-- The quotient passes the limit (R34). -/
abbrev Settings.loosens (set : Settings) (line : List Cell) : Prop :=
  gapLimit line < set.extra line / (gapWidths line).length

/-- What every gap gets (R34). -/
abbrev Settings.quotient (set : Settings) (line : List Cell) : Nat :=
  if set.loosens line then gapLimit line else set.extra line / (gapWidths line).length

/-- What is left for the shares (R34). -/
abbrev Settings.remainder (set : Settings) (line : List Cell) : Nat :=
  if set.loosens line then 0 else set.extra line % (gapWidths line).length

/-- What gap `i` gets (R33 to R35). -/
def Settings.gapExtra (set : Settings) (final : Bool) (line : List Cell) (i : Nat) : Nat :=
  if set.widens final line then
    set.quotient line + gapShare set.distribute i (set.remainder line) (gapWidths line).length
  else 0

/-- Where a line starts (R31). -/
def Settings.lineStart (set : Settings) (line : List Cell) : Nat :=
  set.left + if ¬ set.fits line then 0 else match set.align with
    | .right => set.extra line
    | .center => set.extra line / 2
    | .left => 0
    | .justify => 0

/-- The flags of a line before the end of travel is looked at (R31, R34, R35). -/
def Settings.lineFlags (set : Settings) (final : Bool) (line : List Cell) : LineFlags :=
  { inexact := decide (set.widens final line ∧ set.remainder line ≠ 0)
    loose := decide (set.widens final line ∧ set.loosens line), overset := decide (¬ set.fits line) }

theorem gapUnit_eq (line : List Cell) : gapUnit line = (gapWidths line).min?.getD 0 := by
  unfold gapUnit
  cases gapWidths line <;> rfl

theorem remainder_le (set : Settings) {line : List Cell} (hg : 0 < (gapWidths line).length) :
    set.remainder line ≤ (gapWidths line).length := by
  unfold Settings.remainder
  split
  · exact Nat.zero_le _
  · exact (Nat.mod_lt _ hg).le

theorem gapExtra_of_not_widens {set : Settings} {final : Bool} {line : List Cell} (h : ¬ set.widens final line) :
    set.gapExtra final line = fun _ => 0 := by
  funext i
  exact if_neg h

theorem gapExtra_of_widens {set : Settings} {final : Bool} {line : List Cell} (h : set.widens final line) :
    set.gapExtra final line =
      fun i => set.quotient line + gapShare set.distribute i (set.remainder line) (gapWidths line).length := by
  funext i
  exact if_pos h

theorem lineStart_of_not_fits {set : Settings} {line : List Cell} (h : ¬ set.fits line) :
    set.lineStart line = set.left := by
  simp [Settings.lineStart, h]

theorem lineStart_of_widens {set : Settings} {final : Bool} {line : List Cell} (h : set.widens final line) :
    set.lineStart line = set.left := by
  obtain ⟨halign, -, -, hfits⟩ := h
  simp [Settings.lineStart, hfits, halign]

theorem lineStart_le {set : Settings} {line : List Cell} (h : set.fits line) :
    set.lineStart line ≤ set.left + set.extra line := by
  unfold Settings.lineStart
  rw [if_neg (not_not.2 h)]
  cases set.align <;> simp only <;> omega

/-- The four branches of the release computation as one placement. -/
theorem placeLine_eq (set : Settings) (final : Bool) {cells line : List Cell} (htrim : trimLine cells = line) :
    placeLine set final cells =
      { cells := placeCells (set.gapExtra final line) (set.lineStart line) 0 line
        flags := set.lineFlags final line } := by
  unfold placeLine
  rw [htrim]
  by_cases hnil : line = []
  · subst hnil
    simp [placeCells, Settings.lineFlags, gapWidths, naturalWidth]
  · simp only [hnil, if_false]
    by_cases hfits : set.fits line
    · rw [if_neg (Nat.not_lt.2 hfits)]
      by_cases hwide : set.widens final line
      · have ⟨halign, hfinal, hgaps, _⟩ := hwide
        have hj : justifies set.align final (gapWidths line).length true = true := by
          simp [justifies, halign, hfinal, hgaps]
        rw [if_pos hj, gapExtra_of_widens hwide, lineStart_of_widens hwide]
        simp [Settings.lineFlags, hwide, gapUnit_eq]
      · have hj : justifies set.align final (gapWidths line).length true = false := by
          simpa [justifies, hfits] using hwide
        rw [hj, gapExtra_of_not_widens hwide]
        cases ha : set.align <;> simp [Settings.lineStart, Settings.lineFlags, hwide, hfits, ha]
    · have hwide : ¬ set.widens final line := fun ⟨_, _, _, h⟩ => hfits h
      rw [if_pos (Nat.lt_of_not_le hfits), gapExtra_of_not_widens hwide, lineStart_of_not_fits hfits]
      simp [Settings.lineFlags, hwide, hfits]

/-- The width of a placed line (R33 to R36). -/
theorem placed_width (set : Settings) (final : Bool) (line : List Cell) (x : Nat) :
    ((placeCells (set.gapExtra final line) x 0 line).map (·.width)).sum =
      if ¬ set.widens final line then naturalWidth line
      else if set.loosens line then naturalWidth line + gapLimit line * (gapWidths line).length
      else if set.distribute = .truncate then set.right - set.left - set.remainder line
      else set.right - set.left := by
  rw [placeCells_total]
  by_cases hwide : set.widens final line
  · have ⟨_, _, hgaps, hfits⟩ := hwide
    have shares := sum_gapShare set.distribute hgaps (remainder_le set hgaps)
    rw [if_neg (not_not.2 hwide), gapExtra_of_widens hwide, ← length_gapWidths]
    simp only [Nat.zero_add, Finset.sum_add_distrib, Finset.sum_const, Finset.card_range, smul_eq_mul, shares]
    by_cases hloose : set.loosens line
    · simp [hloose, Nat.mul_comm]
    · have divide := Nat.div_add_mod (set.extra line) (gapWidths line).length
      have whole : naturalWidth line + set.extra line = set.right - set.left := Nat.add_sub_of_le hfits
      simp only [hloose, if_false]
      split <;> omega
  · simp [hwide, gapExtra_of_not_widens hwide]

/-- A line that fits the measure ends within it. -/
theorem placed_end_le {set : Settings} (final : Bool) {line : List Cell} (hm : set.left ≤ set.right)
    (hfits : set.fits line) : set.lineStart line +
      ((placeCells (set.gapExtra final line) (set.lineStart line) 0 line).map (·.width)).sum ≤ set.right := by
  have whole : naturalWidth line + set.extra line = set.right - set.left := Nat.add_sub_of_le hfits
  rw [placed_width]
  by_cases hwide : set.widens final line
  · rw [if_neg (not_not.2 hwide), lineStart_of_widens hwide]
    split
    · next hloose =>
      have filled : gapLimit line * (gapWidths line).length ≤ set.extra line :=
        (Nat.mul_le_mul_right _ (le_of_lt hloose)).trans (Nat.div_mul_le_self _ _)
      omega
    · split <;> omega
  · have start := lineStart_le hfits
    rw [if_pos hwide]
    omega

/-! ## The cut at the end of travel (R32) -/

theorem finishLine_dropped (p : Placed) :
    (finishLine p).2.1 = p.cells.dropWhile fun c => decide (c.start + c.width ≤ 1599) := by
  have cut : withinTravel p.cells ++ (finishLine p).2.1 = p.cells :=
    List.prefix_iff_eq_append.1 (List.takeWhile_prefix _)
  exact List.append_cancel_left (cut.trans List.takeWhile_append_dropWhile.symm)

theorem finishLine_append (p : Placed) : (finishLine p).1 ++ (finishLine p).2.1 = p.cells := by
  rw [finishLine_dropped]
  exact List.takeWhile_append_dropWhile

theorem finishLine_kept {p : Placed} {c : Cell} (h : c ∈ (finishLine p).1) : c.start + c.width ≤ 1599 :=
  of_decide_eq_true (List.mem_takeWhile_imp (p := fun c : Cell => decide (c.start + c.width ≤ 1599)) h)

theorem finishLine_cut_head {p : Placed} {c : Cell} (h : (finishLine p).2.1.head? = some c) :
    1599 < c.start + c.width := by
  rw [finishLine_dropped] at h
  have := List.head?_dropWhile_not (fun c : Cell => decide (c.start + c.width ≤ 1599)) p.cells
  rw [h] at this
  simpa using this

theorem finishLine_cut_nil {p : Placed} (h : ∀ c ∈ p.cells, c.start + c.width ≤ 1599) : (finishLine p).2.1 = [] := by
  rw [finishLine_dropped]
  exact List.dropWhile_eq_nil_iff.2 fun c hc => decide_eq_true (h c hc)

theorem finishLine_flags (p : Placed) : (finishLine p).2.2 =
    { p.flags with overset := p.flags.overset || !(finishLine p).2.1.isEmpty } := by
  show (if (finishLine p).2.1 = [] then p.flags else { p.flags with overset := true }) = _
  cases (finishLine p).2.1 <;> simp

end Sys2Proof.Machine

namespace Sys2Proof

open Sys2Proof.Machine

/-- Settles O46: the trimmed line is placed in one way (`placeLine_eq`), whose cells, width and end are known. -/
theorem justifiedLineFills : Obligations.JustifiedLineFills := by
  unfold Obligations.JustifiedLineFills
  intro set final before line behind hm hr hs hh hl
  have htrim : trimLine (before ++ line ++ behind) = line :=
    trimLine_append (fun c hc => decide_eq_true (hs c hc)) (fun c hc => decide_eq_false (hh c hc))
      fun c hc => decide_eq_false (hl c hc)
  rw [placeLine_eq set final htrim]
  intro gaps g w fits extra limit justified loose q r share start placed cut
  refine ⟨placeCells_forms _ _ _ _, fun i c d hc hd => ?_, rfl, placed_width set final line _, finishLine_append _,
    fun c => finishLine_kept, fun c => finishLine_cut_head, fun hfits => ?_, finishLine_flags _⟩
  · obtain ⟨hstart, hwidth⟩ := placeCells_getElem? hc hd
    refine ⟨hstart, hwidth.trans (congrArg (c.width + ·) ?_)⟩
    by_cases hspace : c.content = .space
    · have hplain : c.plainSpace = true := decide_eq_true hspace
      rw [if_pos hplain, Nat.zero_add, Settings.gapExtra]
      exact ite_congr (propext (iff_self_and.2 fun _ => hspace))
        (fun ⟨⟨_, _, hgaps, _⟩, _⟩ => congrArg (q + ·) (gapShare_eq _ (remainder_le set hgaps))) fun _ => rfl
    · have hplain : ¬ c.plainSpace = true := fun h => hspace (of_decide_eq_true h)
      rw [if_neg hplain, if_neg fun h => hspace h.2]
  · exact finishLine_cut_nil fun c hc =>
      (placeCells_ends _ _ _ _ c hc).trans ((placed_end_le final (by omega) hfits).trans hr)

end Sys2Proof
end

section
set_option Elab.async false
namespace Sys2Proof.Machine

/-! ## The wheel tables of the flash (R46, R48) -/

theorem length_glyphEntries (l : List Byte) : (glyphEntries l).length = l.length / 3 := by
  induction l using glyphEntries.induct with
  | case1 p u c rest ih => simp [glyphEntries, ih]; omega
  | case2 l h =>
    match l, h with
    | [], _ => rfl
    | [_], _ => simp [glyphEntries]
    | [_, _], _ => simp [glyphEntries]
    | p :: u :: c :: rest, h => exact absurd rfl (h p u c rest)

/-- Entry i of a table stands in bytes 3i to 3i + 2 of its entries. -/
theorem getElem?_glyphEntries (l : List Byte) {i : Nat} (h : 3 * i + 2 < l.length) :
    (glyphEntries l)[i]? = some ⟨l.getD (3 * i) 0, l.getD (3 * i + 1) 0, l.getD (3 * i + 2) 0⟩ := by
  induction l using glyphEntries.induct generalizing i with
  | case1 p u c rest ih =>
    cases i with
    | zero => rfl
    | succ i =>
      simp only [List.length_cons] at h
      have := ih (i := i) (by omega)
      simpa only [glyphEntries, List.getElem?_cons_succ, Nat.mul_succ, List.getD_cons_succ, Nat.add_assoc,
        Nat.reduceAdd, ← Nat.add_succ] using this
  | case2 l hl =>
    match l, hl, h with
    | [], _, h => simp at h
    | [_], _, h => simp at h
    | [_, _], _, h => simp at h
    | p :: u :: c :: rest, hl, _ => exact absurd rfl (hl p u c rest)

/-- A table that is long enough is read from its four header bytes and its entries. -/
theorem slotOfTable_cons (id cls space under : Byte) (rest : List Byte) :
    slotOfTable (id :: cls :: space :: under :: rest) =
      match pitchClassOfCode cls with
      | none => {}
      | some p =>
        if id = 0 ∨ id = 255 then {}
        else WheelSlot.finish
          { state := .empty, id := id.toNat, pitch := p, space := clampTo 2 8 space.toNat, underline := some under,
            entries := (glyphEntries rest).map entryOf } := rfl

/-- The pitch class of a code, by its number (R46). -/
theorem pitchClassOfCode_eq (b : Byte) : pitchClassOfCode b =
    if b.toNat = 0x0A ∨ b.toNat = 0x0C ∨ b.toNat = 0x0F ∨ b.toNat = 0 then
      some (if b.toNat = 0x0A then .p10 else if b.toNat = 0x0C then .p12 else if b.toNat = 0x0F then .p15 else .ps)
    else none := by
  revert b
  decide

theorem byte_eq_iff (b c : Byte) : b = c ↔ b.toNat = c.toNat := BitVec.toNat_inj.symm

/-- The underline code that a slot keeps at its last piece (R46). -/
theorem storedUnderline_eq (entries : List GlyphEntry) (code : Option Byte) : storedUnderline entries code =
    code.bind fun c => if 0x21 ≤ c.toNat ∧ c.toNat ≤ 0x7F ∧
      ((entries[c.toNat - 0x21]?).bind (·.petal)).isSome = true then some c else none := by
  simp only [storedUnderline, isGlyph, petalOf, glyphIndex, Bool.and_eq_true, decide_eq_true_eq, and_assoc]

/-! ## Lookups (R47) -/

/-- The slot of a lookup is the first READY one that carries the wheel id. -/
theorem readySlot_append {before after : List WheelSlot} {w : WheelSlot} {id : Nat}
    (hbefore : ∀ v ∈ before, v.state = .ready → v.id ≠ id) (hready : w.state = .ready) (hid : w.id = id) :
    readySlot (before ++ w :: after) (some id) = some w := by
  have hnone : before.find? (fun s => s.state = .ready && s.id = id) = none :=
    List.find?_eq_none.2 fun v hv => by simpa using hbefore v hv
  simp only [readySlot, Option.bind_some, List.find?_append, hnone, Option.none_or]
  exact List.find?_cons_of_pos (by simp [hready, hid])

theorem readySlot_none {slots : List WheelSlot} {id : Nat} (h : ∀ w ∈ slots, w.state = .ready → w.id ≠ id) :
    readySlot slots (some id) = none :=
  List.find?_eq_none.2 fun v hv => by simpa using h v hv

/-- A lookup of an entry that its slot holds. -/
theorem lookGlyph_entry {slots : List WheelSlot} {wheel : Option Nat} {code : Byte} {w : WheelSlot} {g : GlyphEntry}
    (hw : readySlot slots wheel = some w) (hg : w.entries[code.toNat - 0x21]? = some g) :
    lookGlyph slots wheel code = match g.petal with
      | none => .absent
      | some p => .found p g.units g.cls w := by
  have hg' : w.entries[glyphIndex code]? = some g := hg
  cases hp : g.petal <;> simp only [lookGlyph, hw, hg', hp]

/-! ## The order of a bucket (R139) -/

theorem sortsAfter_irrefl (v : List Nat) : sortsAfter v v = false := by
  induction v with
  | nil => rfl
  | cons a v ih => simp [sortsAfter, ih]

theorem sortsAfter_asymm {v w : List Nat} (h : sortsAfter v w = true) : sortsAfter w v = false := by
  induction v generalizing w with
  | nil => simp [sortsAfter] at h
  | cons a v ih =>
    cases w with
    | nil => rfl
    | cons b w =>
      by_cases hab : a = b
      · simp only [sortsAfter, hab, if_true] at h ⊢
        exact ih h
      · have hlt : b < a := by simpa [sortsAfter, hab] using h
        simp only [sortsAfter, Ne.symm hab, if_false, decide_eq_false_iff_not]
        omega

/-! ## The scan of a bucket (R144) -/

/-- A bucket entry as the flash holds it: its length, then its letters (R139). -/
def bucketEntry (v : List Nat) : List Byte := byteOf v.length :: v.map byteOf

/-- A word that a bucket entry can hold. -/
def FitsEntry (v : List Nat) : Prop := 1 ≤ v.length ∧ v.length ≤ 255 ∧ ∀ c ∈ v, c < 256

/-- The scan meets an entry: it ends there at the word or at one that sorts after it, and passes on otherwise. -/
theorem scanBucket_entry {v : List Nat} (hv : FitsEntry v) (w : List Nat) (fuel : Nat) (rest : List Byte) :
    scanBucket w (fuel + 1) (bucketEntry v ++ rest) =
      if v = w then .found else if sortsAfter v w then .missing else scanBucket w fuel rest := by
  obtain ⟨hpos, hle, hc⟩ := hv
  have hlen : (byteOf v.length).toNat = v.length := by simp [byteOf]; omega
  have hzero : byteOf v.length ≠ 0 := fun h => by rw [h] at hlen; simp at hlen; omega
  have hletters : (v.map byteOf).map (·.toNat) = v := by
    rw [List.map_map]
    exact (List.map_congr_left fun c h => by simpa [byteOf] using Nat.mod_eq_of_lt (hc c h)).trans (List.map_id v)
  have htake : (v.map byteOf ++ rest).take v.length = v.map byteOf := List.take_left' (List.length_map _)
  have hdrop : (v.map byteOf ++ rest).drop v.length = rest := List.drop_left' (List.length_map _)
  have hlong : ¬ (byteOf v.length = 0 ∨ (v.map byteOf ++ rest).length < v.length) :=
    not_or.2 ⟨hzero, by simp⟩
  simp only [bucketEntry, List.cons_append, scanBucket, hlen, hlong, if_false, htake, hdrop, hletters]

/-- The scan passes the entries that neither are the word nor sort after it. -/
theorem scanBucket_passes {words : List (List Nat)} {w : List Nat} (hfit : ∀ v ∈ words, FitsEntry v)
    (hpass : ∀ v ∈ words, v ≠ w ∧ sortsAfter v w = false) (fuel : Nat) (rest : List Byte) :
    scanBucket w (words.length + fuel) (words.flatMap bucketEntry ++ rest) = scanBucket w fuel rest := by
  induction words with
  | nil => simp
  | cons v words ih =>
    obtain ⟨hne, hafter⟩ := hpass v List.mem_cons_self
    rw [List.flatMap_cons, List.append_assoc, List.length_cons, Nat.add_right_comm,
      scanBucket_entry (hfit v List.mem_cons_self), if_neg hne, hafter]
    exact ih (fun v h => hfit v (List.mem_cons_of_mem _ h)) fun v h => hpass v (List.mem_cons_of_mem _ h)

theorem length_le_flatMap_entry (words : List (List Nat)) : words.length ≤ (words.flatMap bucketEntry).length := by
  induction words with
  | nil => simp
  | cons v words ih => simp only [List.flatMap_cons, List.length_append, List.length_cons, bucketEntry]; omega

/-- The scan of a bucket that goes on behind some entries that it passes, with one byte or more still to see. -/
theorem scanBucket_behind {words : List (List Nat)} {w : List Nat} (hfit : ∀ v ∈ words, FitsEntry v)
    (hpass : ∀ v ∈ words, v ≠ w ∧ sortsAfter v w = false) (n : Byte) (rest : List Byte) :
    ∃ fuel, scanBucket w (words.flatMap bucketEntry ++ n :: rest).length (words.flatMap bucketEntry ++ n :: rest) =
      scanBucket w (fuel + 1) (n :: rest) := by
  have hle := length_le_flatMap_entry words
  refine ⟨(words.flatMap bucketEntry).length - words.length + rest.length, ?_⟩
  have hfuel : (words.flatMap bucketEntry ++ n :: rest).length =
      words.length + ((words.flatMap bucketEntry).length - words.length + rest.length + 1) := by
    rw [List.length_append, List.length_cons]
    omega
  rw [hfuel]
  exact scanBucket_passes hfit hpass _ _

/-- The scan behind some entries that it passes ends at the word, or at an entry that sorts after it. -/
theorem scanBucket_sorts {words : List (List Nat)} {v w : List Nat} (hfit : ∀ v ∈ words, FitsEntry v)
    (hpass : ∀ v ∈ words, v ≠ w ∧ sortsAfter v w = false) (hv : FitsEntry v) (rest : List Byte) :
    let all := words.flatMap bucketEntry ++ bucketEntry v ++ rest
    (v = w → scanBucket w all.length all = .found) ∧ (sortsAfter v w = true → scanBucket w all.length all = .missing) := by
  intro all
  obtain ⟨fuel, h⟩ := scanBucket_behind hfit hpass (byteOf v.length) (v.map byteOf ++ rest)
  have hall : all = words.flatMap bucketEntry ++ byteOf v.length :: (v.map byteOf ++ rest) := by
    simp [all, bucketEntry]
  rw [hall, h.trans (scanBucket_entry hv w fuel rest)]
  refine ⟨fun heq => if_pos heq, fun hafter => ?_⟩
  have hne : v ≠ w := fun heq => by simp [heq, sortsAfter_irrefl] at hafter
  rw [if_neg hne, if_pos hafter]

theorem scanBucket_nil (w : List Nat) (fuel : Nat) : scanBucket w fuel [] = .missing := by
  cases fuel <;> rfl

/-- A bucket whose entries the scan all passes does not hold the word. -/
theorem scanBucket_missing {words : List (List Nat)} {w : List Nat} (hfit : ∀ v ∈ words, FitsEntry v)
    (hpass : ∀ v ∈ words, v ≠ w ∧ sortsAfter v w = false) :
    scanBucket w (words.flatMap bucketEntry).length (words.flatMap bucketEntry) = .missing := by
  have hle := length_le_flatMap_entry words
  have h := scanBucket_passes hfit hpass ((words.flatMap bucketEntry).length - words.length) []
  rwa [List.append_nil, scanBucket_nil, Nat.add_sub_cancel' hle] at h

/-- In a sorted bucket the scan finds a word exactly when the bucket holds it. -/
theorem scanBucket_sorted {words : List (List Nat)} (w : List Nat) (hfit : ∀ v ∈ words, FitsEntry v)
    (hsorted : words.Pairwise fun a b => sortsAfter b a = true) (fuel : Nat) (hfuel : words.length ≤ fuel) :
    scanBucket w fuel (words.flatMap bucketEntry) = if w ∈ words then .found else .missing := by
  induction words generalizing fuel with
  | nil => simp [scanBucket_nil]
  | cons v words ih =>
    obtain ⟨hv, hwords⟩ := List.pairwise_cons.1 hsorted
    obtain ⟨n, rfl⟩ : ∃ n, fuel = n + 1 := Nat.exists_eq_add_one.2 (Nat.lt_of_lt_of_le (Nat.succ_pos _) hfuel)
    rw [List.flatMap_cons, scanBucket_entry (hfit v List.mem_cons_self),
      ih (fun v h => hfit v (List.mem_cons_of_mem _ h)) hwords n (Nat.le_of_succ_le_succ hfuel)]
    by_cases heq : v = w
    · simp [heq]
    · rw [if_neg heq]
      by_cases hin : w ∈ words
      · simp [sortsAfter_asymm (hv w hin), hin]
      · simp [hin, Ne.symm heq]

end Sys2Proof.Machine
namespace Sys2Proof
open Sys2Proof.Machine

/-- Settles O29: a table by its bytes (`slotOfTable_cons`), a lookup by its slot (`readySlot_append`), a scan by induction on
the bucket's entries (`scanBucket_passes`, `scanBucket_sorted`). -/
theorem flashTables : Obligations.FlashTables := by
  unfold Obligations.FlashTables
  refine ⟨fun bytes hlen => ?_, fun slots code id => ⟨rfl, fun h => ?_, ?_⟩, ?_⟩
  · obtain ⟨id, cls, space, under, rest, rfl⟩ : ∃ id cls space under rest, bytes = id :: cls :: space :: under :: rest := by
      match bytes, hlen with
      | id :: cls :: space :: under :: rest, _ => exact ⟨id, cls, space, under, rest, rfl⟩
    have hrest : rest.length = 288 := by simpa using hlen
    intro at' known w
    have hw : w = _ := slotOfTable_cons id cls space under rest
    have hknown : known ↔ (id.toNat ≠ 0 ∧ id.toNat ≠ 255) ∧
        (cls.toNat = 0x0A ∨ cls.toNat = 0x0C ∨ cls.toNat = 0x0F ∨ cls.toNat = 0) := by
      simp only [known, at', and_assoc]
      exact Iff.rfl
    have hid : (id = 0 ∨ id = 255) ↔ ¬ (id.toNat ≠ 0 ∧ id.toNat ≠ 255) := by
      rw [byte_eq_iff, byte_eq_iff]
      exact Decidable.or_iff_not_not_and_not
    have hentry : ∀ i < 95, ((glyphEntries rest).map entryOf)[i]? =
        some ⟨if at' (4 + 3 * i) ≤ 95 then some (at' (4 + 3 * i)) else none,
          max 2 (min 8 (at' (5 + 3 * i))), min 3 (at' (6 + 3 * i))⟩ := fun i hi => by
      have hat : ∀ j, at' (4 + j) = (rest.getD j 0).toNat := fun j => by
        simp only [at', Nat.add_comm 4 j]
        rfl
      have h5 : at' (5 + 3 * i) = (rest.getD (3 * i + 1) 0).toNat := by rw [← hat]; congr 1; omega
      have h6 : at' (6 + 3 * i) = (rest.getD (3 * i + 2) 0).toNat := by rw [← hat]; congr 1; omega
      rw [List.getElem?_map, getElem?_glyphEntries rest (by omega), h5, h6, hat]
      rfl
    rw [pitchClassOfCode_eq] at hw
    refine ⟨fun h => ?_, fun h => ?_⟩
    · rw [hw]
      by_cases hcls : cls.toNat = 0x0A ∨ cls.toNat = 0x0C ∨ cls.toNat = 0x0F ∨ cls.toNat = 0
      · simp only [if_pos hcls]
        rw [if_pos (hid.2 fun hi => h (hknown.2 ⟨hi, hcls⟩))]
      · simp only [if_neg hcls]
    · obtain ⟨hi, hcls⟩ := hknown.1 h
      simp only [if_pos hcls, if_neg (not_not.2 hi ∘ hid.1)] at hw
      rw [hw]
      refine ⟨rfl, rfl, rfl, rfl, ?_, fun i h => ?_, ?_⟩
      · simp [WheelSlot.finish, length_glyphEntries, hrest]
      · simp only [WheelSlot.finish, List.getElem?_take, h, if_true]
        exact hentry i h
      · simp only [WheelSlot.finish, storedUnderline_eq, Option.bind_some]
        refine if_congr (and_congr_right fun hlo => and_congr_right fun hhi => ?_) rfl rfl
        have h95 : under.toNat - 0x21 < 95 := by omega
        rw [List.getElem?_take, if_pos h95, hentry _ h95]
        change (if at' (4 + 3 * (at' 3 - 0x21)) ≤ 95 then some _ else none).isSome = true ↔ _
        split <;> simp_all
  · simp only [lookGlyph, readySlot_none h]
  · rintro before w after rfl hbefore hready hid g hg
    have h := lookGlyph_entry (code := code) (readySlot_append (after := after) hbefore hready hid) hg
    exact ⟨fun hp => by rw [h, hp], fun p hp => by rw [h, hp]⟩
  · intro words w entry bytes hfit
    refine ⟨fun hsorted => scanBucket_sorted w hfit hsorted _ (length_le_flatMap_entry words), fun hpass =>
      ⟨scanBucket_missing hfit hpass, fun v rest hpos hle hc => ?_, fun n rest hn => ?_⟩⟩
    · exact scanBucket_sorts hfit hpass ⟨hpos, hle, hc⟩ rest
    · obtain ⟨fuel, h⟩ := scanBucket_behind hfit hpass n rest
      exact h.trans (if_pos hn)
end Sys2Proof
end

section
set_option Elab.async false
namespace Sys2Proof.Machine

/-! ## Requests whose operation is followed by settling (R189, R190) -/

/-- The part with another frame on the outgoing line, or none. -/
def Engine.withTx (x : Option Outgoing) (e : Engine) : Engine := { e with link := { e.link with tx := x } }

theorem withLink_same (l : Link) (n : Nat) {e : Engine} (h : l.rx = e.link.rx) :
    Same [.outgoing, .openValues] e { e with link := l, free := n } := by
  intro p hp
  cases p
  case outgoing => exact absurd (by decide) hp
  case openValues => exact absurd (by decide) hp
  all_goals simp [Piece.same, h]

theorem withTx_same (x : Option Outgoing) (e : Engine) : Same [.outgoing] e (e.withTx x) := by
  intro p hp
  cases p
  case outgoing => exact absurd (by decide) hp
  all_goals simp [Piece.same, Engine.withTx]

/-- A reply is the operation's, taken at the line as it is or behind a busy one, and nothing but the line and the count of
open values comes to what the operation does. -/
theorem reply_shape (typ : Byte) (op : Engine → List Byte × Engine) (e : Engine) :
    ∃ x l n, e.reply typ op =
      Engine.joinReply typ (op (e.withTx x)).1 false { (op (e.withTx x)).2 with link := l, free := n } ∧
      l.rx = (op (e.withTx x)).2.link.rx := by
  unfold Engine.reply
  simp only
  split
  · exact ⟨some busyLine, _, _, rfl, rfl⟩
  · split
    · exact ⟨e.link.tx, _, _, rfl, rfl⟩
    · exact ⟨e.link.tx, (op e).2.link, (op e).2.free, rfl, rfl⟩

/-- A reply that joins stands on the line or in the reply list (R190). -/
theorem joinReply_answered (typ : Byte) (payload : List Byte) (e : Engine) :
    (e.joinReply typ payload false).answered typ payload := by
  let l : Link := { e.link with replies := e.link.replies ++ [⟨⟨typ, payload⟩, false⟩] }
  have hmem : (⟨⟨typ, payload⟩, false⟩ : Outgoing) ∈ l.replies := by simp [l]
  show l.pump.tx = _ ∨ _ ∈ l.pump.replies
  rcases l.pump_cases with ⟨h, -⟩ | ⟨r, rest, -, hr, h⟩ | ⟨n, rest, -, hr, -, h⟩ <;> rw [h]
  · exact .inr hmem
  · rw [hr] at hmem
    exact (List.mem_cons.1 hmem).imp (fun h => congrArg some h.symm) id
  · exact .inr hmem

/-- A reply adds nothing but the outgoing line to the part. -/
theorem joinReply_shape (typ : Byte) (payload : List Byte) (e : Engine) (l : Link) (n : Nat) :
    ∃ l', Engine.joinReply typ payload false { e with link := l, free := n } = { e with link := l', free := n } :=
  ⟨_, rfl⟩

/-- A request whose operation is settled: its reply goes out, and the part is what the operation and the settling leave, but
for the outgoing line, the count of open values and the display. -/
theorem exec_settled {i : Instr} {s : State} {typ : Byte} {op : Operation} {payload : List Byte} {xs : List Piece}
    {f : Option Outgoing → Engine}
    (hx : exec i s = .next (s.on fun e => (e.answer typ true plainRefusal false (settled op)).refresh)) (hears : s.hears)
    (hop : ∀ x, op (s.withTx x) = (payload, f x)) (hs : ∀ x, Same xs (s.withTx x) (f x)) :
    ∃ t, exec i s = .next t ∧ t.answered (typ + 0x40) payload ∧ Keeps (xs ++ .openValues :: settleParts) s t ∧
      ∃ x l n, t.toEngine = Engine.refresh { (f x).settle with link := l, free := n } := by
  obtain ⟨x, l, n, hreply, hrx⟩ := reply_shape (typ + 0x40) (settled op) s.toEngine
  have heq := (answer_eq_reply (off := false) typ hears.1 (.inr hears.2)).trans hreply
  simp only [settled, hop x] at heq hrx
  obtain ⟨l', hl'⟩ := joinReply_shape (typ + 0x40) payload (f x).settle l n
  have hset : settleParts ⊆ xs ++ .openValues :: settleParts := fun p hp =>
    List.mem_append_right _ (List.mem_cons_of_mem _ hp)
  have hout : [Piece.outgoing] ⊆ xs ++ .openValues :: settleParts := fun p hp =>
    hset (by rw [List.mem_singleton.1 hp]; decide)
  have hopen : [Piece.outgoing, .openValues] ⊆ xs ++ .openValues :: settleParts := fun p hp =>
    List.mem_append_right _ ((by decide : [Piece.outgoing, .openValues] ⊆ .openValues :: settleParts) hp)
  have acts : Same (xs ++ .openValues :: settleParts) s.toEngine
      (Engine.joinReply (typ + 0x40) payload false { (f x).settle with link := l, free := n }) :=
    (((withTx_same x s.toEngine).mono hout).trans ((hs x).mono (List.subset_append_left _ _))).trans
      (((settle_same _).mono hset).trans (((withLink_same l n hrx).mono hopen).trans ((joinReply_same _ _ _ _).mono hout)))
  refine ⟨_, hx, ?_, ⟨rfl, ?_⟩, x, l', n, ?_⟩
  · simp only [State.on, heq, Engine.answered, Engine.refresh_link]
    exact joinReply_answered _ _ _
  · simp only [State.on, heq]
    exact acts.trans ((refresh_same _).mono (List.nil_subset _))
  · simp only [State.on, heq, hl']

/-- A request that is refused changes nothing itself. -/
theorem exec_refuses {i : Instr} {s : State} {typ : Byte} {op : Operation} {status : Status}
    (hx : exec i s = .next (s.on fun e => (e.answer typ true plainRefusal false (settled op)).refresh)) (hears : s.hears)
    (hop : ∀ x, op (s.withTx x) = refuse status (s.withTx x)) : Refused i s (typ + 0x40) [status.byte] := by
  obtain ⟨t, ht, hanswered, hkeeps, -⟩ := exec_settled (xs := []) hx hears hop fun x => .refl _ _
  refine ⟨t, ht, hanswered, hkeeps, fun still => ?_⟩
  have hself : op s.toEngine = refuse status s.toEngine := hop s.link.tx
  obtain ⟨t', ht', -, -, hkeeps'⟩ := exec_answers (xs := []) (payload := [status.byte]) (f := s.toEngine) hx hears.1
    (.inr hears.2) (by simp only [settled, hself, refuse, still]) rfl (.refl _ _)
  cases ht.symm.trans ht'
  exact hkeeps'

/-! ## The wheel table store (R46, R49, R50) -/

theorem withSlots_same (w : List WheelSlot) (e : Engine) : Same [.slots] e { e with slots := w } := by
  intro p hp
  cases p
  case slots => exact absurd (by decide) hp
  all_goals simp [Piece.same]

theorem settle_slots (e : Engine) : e.settle.slots = e.slots := settle_same e .slots (by decide)

/-- A wheel store request that is answered with a status, and may store slots. -/
theorem exec_stores {i : Instr} {s : State} {op : Operation} {status : Byte} {slots : List WheelSlot}
    (hx : exec i s = .next (s.on fun e => (e.answer 0x04 true plainRefusal false (settled op)).refresh)) (hears : s.hears)
    (hop : ∀ x, op (s.withTx x) = ([status], { s.withTx x with slots := slots })) :
    ∃ t, exec i s = .next t ∧ t.slots = slots ∧ t.answered 0x44 [status] ∧
      Keeps (.slots :: .openValues :: settleParts) s t := by
  obtain ⟨t, ht, hanswered, hkeeps, x, l, n, heq⟩ := exec_settled (xs := [.slots])
    (f := fun x => { s.withTx x with slots := slots }) hx hears hop fun x => withSlots_same slots (s.withTx x)
  refine ⟨t, ht, ?_, hanswered, hkeeps⟩
  simp only [heq, Engine.refresh_slots, settle_slots]

theorem exec_wheelTablePiece0 (s : State) (slot wheel cls space under : Byte) :
    exec (.wheelTablePiece0 slot wheel cls space under) s =
      .next (s.on fun e =>
        (e.answer 0x04 true plainRefusal false (settled (Engine.opPiece0 slot wheel cls space under))).refresh) := by
  rfl

theorem exec_wheelTablePiece (s : State) {slot piece : Byte} {entries : List GlyphBytes} (hp : piece ≠ 0)
    (hl : entries.length = 8) :
    exec (.wheelTablePiece slot piece entries) s =
      .next (s.on fun e => (e.answer 0x04 true plainRefusal false (settled (Engine.opPiece slot piece entries))).refresh) := by
  have ok : (decide (entries.length = 8) && decide (piece ≠ 0)) = true :=
    Bool.and_eq_true_iff.2 ⟨decide_eq_true hl, decide_eq_true hp⟩
  show Host.Outcome.next _ = _
  simp only [Engine.takePieceN, ok]

/-- A pitch class byte outside the four codes has no pitch class (R46). -/
theorem pitchClassOfCode_none {b : Byte} (h : b ∉ [(0x0A : Byte), 0x0C, 0x0F, 0x00]) : pitchClassOfCode b = none := by
  revert b
  decide

theorem pitchClassOfCode_some {p : Byte × PitchClass}
    (h : p ∈ [((0x0A : Byte), PitchClass.p10), (0x0C, .p12), (0x0F, .p15), (0x00, .ps)]) :
    pitchClassOfCode p.1 = some p.2 := by
  revert p
  decide

theorem refuse_slots (status : Status) (e : Engine) : refuse status e = ([status.byte], { e with slots := e.slots }) := rfl

theorem okOrClamped_byte (b : Bool) : (okOrClamped b).byte = if b = true then 0x01 else 0x00 := by
  cases b <;> rfl

theorem clampTo_units (n : Nat) : clampTo 2 8 n ≠ n ↔ ¬ (2 ≤ n ∧ n ≤ 8) := by
  simp only [clampTo]
  omega

section pieces
variable {e : Engine} {slot wheel cls space under piece : Byte} {entries : List GlyphBytes}

/-- In STARTING the wheel store refuses every piece (R49; log 19). -/
theorem opPiece0_starting (h : e.power.state = .starting) :
    e.opPiece0 slot wheel cls space under = refuse .busy e := by
  simp only [Engine.opPiece0, h, if_true]

theorem opPiece0_malformed (on : e.power.state ≠ .starting)
    (h : 3 < slot.toNat ∨ wheel = 0 ∨ wheel = 255 ∨ cls ∉ [(0x0A : Byte), 0x0C, 0x0F, 0x00]) :
    e.opPiece0 slot wheel cls space under = refuse .malformed e := by
  simp only [Engine.opPiece0, on, if_false]
  split
  · rfl
  · rename_i hslot
    split
    · rfl
    · rename_i p hp
      refine if_pos ?_
      rcases h with h | h | h | h
      · exact absurd h hslot
      · exact .inl h
      · exact .inr h
      · rw [pitchClassOfCode_none h] at hp
        cases hp

/-- Piece 0 with a slot, a wheel id and a pitch class that are known: BUSY for a slot in use, and loaded otherwise. -/
theorem opPiece0_known {p : PitchClass} (on : e.power.state ≠ .starting) (hslot : slot.toNat ≤ 3) (h0 : wheel ≠ 0)
    (h255 : wheel ≠ 255) (hp : pitchClassOfCode cls = some p) :
    e.opPiece0 slot wheel cls space under =
      if e.slotBusy (e.slotAt slot.toNat) then refuse .busy e
      else ([if 2 ≤ space.toNat ∧ space.toNat ≤ 8 then 0x00 else 0x01],
        { e with slots := (e.slots.set slot.toNat
            { state := .loading 1, id := wheel.toNat, pitch := p, space := max 2 (min 8 space.toNat),
              underline := some under, entries := [] }) }) := by
  have hstatus : (okOrClamped (decide (clampTo 2 8 space.toNat ≠ space.toNat))).byte =
      if 2 ≤ space.toNat ∧ space.toNat ≤ 8 then 0x00 else 0x01 := by
    rw [okOrClamped_byte]
    simp only [decide_eq_true_eq, clampTo_units, ite_not]
  have hid : ¬ (wheel = 0 ∨ wheel = 255) := not_or.2 ⟨h0, h255⟩
  simp only [Engine.opPiece0, on, Nat.not_lt.2 hslot, hp, hid, if_false, hstatus]
  rfl

theorem slotBusy_iff {w : WheelSlot} : e.slotBusy w = true ↔
    w.state = .ready ∧ (e.comp.wheel = some w.id ∨ e.wheel.mounted = some w.id) ∧
      (e.seq.queue ≠ [] ∨ e.seq.stage ≠ []) := by
  simp only [Engine.slotBusy, Bool.and_eq_true, Bool.or_eq_true, Bool.not_eq_true', Bool.and_eq_false_iff,
    decide_eq_true_eq, decide_eq_false_iff_not, and_assoc, ne_eq]

/-- A piece that a READY or EMPTY slot meets is refused. -/
theorem opPiece_refused (on : e.power.state ≠ .starting) (hslot : slot.toNat ≤ 3)
    (h : (e.slotAt slot.toNat).state = .ready ∨ (e.slotAt slot.toNat).state = .empty) :
    e.opPiece slot piece entries = refuse .malformed e := by
  rcases h with h | h <;>
    simp only [Engine.opPiece, on, Nat.not_lt.2 hslot, if_false, h]

/-- A piece that a LOADING slot does not expect gives the load up. -/
theorem opPiece_other (on : e.power.state ≠ .starting) (hslot : slot.toNat ≤ 3) {next : Nat}
    (h : (e.slotAt slot.toNat).state = .loading next) (hne : next ≠ piece.toNat) :
    e.opPiece slot piece entries = ([0x07], { e with slots := e.slots.set slot.toNat {} }) := by
  have : ¬ (piece.toNat = next ∧ next ≤ 12) := fun k => hne k.1.symm
  simp only [Engine.opPiece, on, Nat.not_lt.2 hslot, if_false, h, this]
  rfl

/-- The piece that a LOADING slot expects is stored. -/
theorem opPiece_expected (on : e.power.state ≠ .starting) (hslot : slot.toNat ≤ 3)
    (h : (e.slotAt slot.toNat).state = .loading piece.toNat) (hle : piece.toNat ≤ 12) :
    e.opPiece slot piece entries = ([if (keptEntries piece.toNat entries).any entryClamped = true then 0x01 else 0x00],
      { e with slots := e.slots.set slot.toNat ((e.slotAt slot.toNat).takePiece piece.toNat entries) }) := by
  simp only [Engine.opPiece, on, Nat.not_lt.2 hslot, if_false, h, hle, and_self, if_true, okOrClamped_byte]

end pieces

theorem entryClamped_any (l : List GlyphBytes) : l.any entryClamped = true ↔
    ∃ b ∈ l, b.units.toNat < 2 ∨ 8 < b.units.toNat ∨ 3 < b.cls.toNat := by
  simp only [List.any_eq_true, entryClamped, Bool.or_eq_true, decide_eq_true_eq, or_assoc]

theorem toNat_eq_twelve (piece : Byte) : piece.toNat = 12 ↔ piece = 12 :=
  ⟨fun h => BitVec.eq_of_toNat_eq h, fun h => h ▸ rfl⟩

end Sys2Proof.Machine

namespace Sys2Proof
open Sys2Proof.Machine

/-- Settles O22: each piece is one of the operations' cases, and its slots and status go through the settling unchanged. -/
theorem wheelTableLoads : Obligations.WheelTableLoads := by
  unfold Obligations.WheelTableLoads
  refine ⟨fun s slot wheel cls space under hears => ?_, fun s slot piece entries hears on hslot hp hl => ?_⟩
  · intro answer old inUse
    have stores := fun {status slots} => exec_stores (status := status) (slots := slots)
      (exec_wheelTablePiece0 s slot wheel cls space under) hears
    refine ⟨fun h => stores fun x => opPiece0_starting h, fun on => ⟨fun h => stores fun x => opPiece0_malformed on h, ?_⟩⟩
    rintro hslot h0 h255 p hp rfl
    have known := fun x => opPiece0_known (e := s.withTx x) (space := space) (under := under) on hslot h0 h255
      (pitchClassOfCode_some hp)
    refine ⟨fun busy => stores fun x => ?_, fun free => stores fun x => ?_⟩
    · exact (known x).trans (if_pos ((slotBusy_iff (e := s.withTx x)).2 busy))
    · exact (known x).trans (if_neg (mt (slotBusy_iff (e := s.withTx x)).1 free))
  · intro answer old stored kept status under
    have stores := fun {status slots} => exec_stores (status := status) (slots := slots)
      (exec_wheelTablePiece s (slot := slot) hp hl) hears
    have hstored : old.entries ++ entries.map entryOf = stored := rfl
    have hkept : keptEntries piece.toNat entries = kept := by
      simp only [keptEntries, toNat_eq_twelve, kept]
    have hstatus : (if (keptEntries piece.toNat entries).any entryClamped = true then 0x01 else 0x00 : Byte) = status := by
      simp only [hkept, entryClamped_any, status]
    refine ⟨fun hnext hlt => stores fun x => ?_, fun hnext htwelve => stores fun x => ?_,
      fun next hnext _ hne => stores fun x => opPiece_other on hslot hnext hne,
      fun h => stores fun x => opPiece_refused on hslot h⟩
    · rw [opPiece_expected (e := s.withTx x) on hslot hnext hlt.le, hstatus]
      have : piece.toNat ≠ 12 := hlt.ne
      simp only [WheelSlot.takePiece, this, if_false]
      rfl
    · have htwelve' : piece.toNat = 12 := (toNat_eq_twelve piece).2 htwelve
      rw [opPiece_expected (e := s.withTx x) on hslot (htwelve'.symm ▸ hnext) htwelve'.le, hstatus]
      simp only [WheelSlot.takePiece, htwelve', if_true, WheelSlot.finish, storedUnderline_eq]
      rfl
end Sys2Proof
end

section
set_option Elab.async false
namespace Sys2Proof.Machine

/-- A self-test that waits at step 3 with the cover open, while a homing outside the test still searches: its own step
fails as soon as anything goes on, and takes the channel from the homing (R176; log 55). -/
def searchingUncovered : State :=
  { Tests.running with
    wheel := { state := .homing, homing := some ⟨.cover, none, .search⟩ }
    levels := { Tests.running.levels with closed := false }
    hammer := { state := .off }
    selfTest := some { group := 1, step := 3, sub := 0, failed := [], position := none, wheel := none } }

/-- The STRIKE that `pastTravel` executes: its second fire stands at 2000, past the travel. -/
def strikePastTravel : Order :=
  { Tests.orderOf 0 (.strike { Tests.strikeA with fires := [⟨.glyph, 120, some 64⟩, ⟨.under1, 2000, some 63⟩] }) .executing
    with fired := [.glyph], afterHammer := true, record := some 3 }

/-- The carriage on its way to a fire past the travel, with everything else in place for it. -/
def pastTravel : State :=
  { Tests.queued [strikePastTravel] Tests.running with
    carriage := { state := .moving, position := 120, target := 2000 }
    wheel := { Tests.running.wheel with petal := some 63 }
    lift := { state := .held .print } }

/-- A soft reset's last homing with a stale LIFT at the head of the queue and fifteen groups that have lost all their
orders: dropping the LIFT closes them all, and their notices fill the queue (R83, R191). -/
def crowdedReset : State :=
  { Tests.running with
    seq := { state := .stopped, queue := [Tests.orderOf 0 (.lift .gone) .prepared], nextOrder := 1
             groups := List.replicate 15 { id := 3, kind := .line, remaining := 0 } }
    wheel := { state := .homing, homing := some ⟨.softReset, none, .search⟩ }
    power := { state := .run, startUp := none, softReset := some ⟨.done, .running⟩ } }

end Sys2Proof.Machine
namespace Sys2Proof
open Sys2Proof.Machine

/-- Refutes O51: in `searchingUncovered` the index mark does not leave the wheel HOMING, since step 3 of the test that waits
fails at once with the cover open and turns the channel OFF. -/
theorem not_wheelEvents : ¬ Obligations.WheelEvents := by
  unfold Obligations.WheelEvents
  intro h
  obtain ⟨-, homings⟩ := h searchingUncovered 0 (by decide)
  obtain ⟨searches, -⟩ := homings (by decide) rfl _ rfl (.inl rfl)
  obtain ⟨t, ht, hstate, -⟩ := searches rfl
  have off : (Tests.after (exec (.indexMark 0) searchingUncovered)).wheel.state = .off := by decide +kernel
  rw [ht] at off
  exact absurd (hstate.symm.trans off) (by decide)

/-- Refutes O58: the fire of `pastTravel` stands past 1599, where the carriage never is (R87; log 95), so that its arrival
fires nothing. -/
theorem not_strikesAndLifts : ¬ Obligations.StrikesAndLifts := by
  unfold Obligations.StrikesAndLifts
  intro h
  obtain ⟨fire, -⟩ := h pastTravel (by decide) rfl rfl rfl rfl (by decide) (by decide) rfl strikePastTravel (by decide)
  obtain ⟨onArrival, -⟩ := fire ⟨.under1, 2000, some 63⟩ [] (by decide)
  obtain ⟨strikes, -⟩ := onArrival rfl rfl rfl rfl rfl rfl (by decide) rfl rfl
  obtain ⟨t, ht, hhammer, -⟩ := strikes _ rfl (by decide) 3 rfl
  have ready : (Tests.after (exec .carriageMoveEnd pastTravel)).hammer.state = .ready := by decide +kernel
  rw [ht] at ready
  exact absurd ((congrArg Hammer.state hhammer).symm.trans ready) (by decide)

/-- Refutes O60: the wheel's failure in `crowdedReset` is written, but its FAULT notice is lost to an OVERFLOW behind the DONE
notices of the same event. -/
theorem not_homingsEnd : ¬ Obligations.HomingsEnd := by
  unfold Obligations.HomingsEnd
  intro h
  obtain ⟨-, -, resets⟩ := h crowdedReset (by decide) rfl rfl rfl rfl rfl rfl
  obtain ⟨-, wheels⟩ := resets ⟨.done, .running⟩ rfl (.inl rfl) rfl rfl rfl
  obtain ⟨-, fails⟩ := wheels rfl (by decide) _ rfl rfl
  obtain ⟨t, ht, -, -, writes, -⟩ := fails .wheelSearchLimit .wheelHomeFail rfl
  obtain ⟨-, -, raised⟩ := writes rfl rfl
  have lost : Notice.fault .x .wheelHomeFail none false 0 none none none ∉
      (Tests.after (exec .wheelSearchLimit crowdedReset)).link.notices := by decide +kernel
  rw [ht] at lost
  exact lost (raised (by decide) rfl)
end Sys2Proof
end

section
set_option Elab.async false
namespace Sys2Proof.Machine

/-! ## Notices that have been raised stay (R190, R191) -/

/-- Behind a frame on the line, no notice of the first link is lost in the second, but for the counts of OVERFLOW, and the
frame is still there. -/
def Link.Keeps (l m : Link) : Prop :=
  l.tx ≠ none → m.tx ≠ none ∧ (∀ n ∈ l.notices, n.isOverflow = false → n ∈ m.notices) ∧
    ((∃ n ∈ l.notices, n.isOverflow = true) → ∃ n ∈ m.notices, n.isOverflow = true)

theorem Link.Keeps.refl (l : Link) : l.Keeps l := fun h => ⟨h, fun _ h _ => h, id⟩

theorem Link.Keeps.trans {l m n : Link} (h : l.Keeps m) (k : m.Keeps n) : l.Keeps n := fun htx => by
  obtain ⟨hm, hn, ho⟩ := h htx
  obtain ⟨km, kn, ko⟩ := k hm
  exact ⟨km, fun x hx hover => kn x (hn x hx hover) hover, ko ∘ ho⟩

theorem takeNotice_mem {m : Notice} (n : Notice) {q : List Notice} (h : m ∈ q) (hm : m.isOverflow = false) :
    m ∈ takeNotice n q := by
  unfold takeNotice
  split
  · rename_i k hk
    obtain ⟨init, rfl⟩ := List.getLast?_eq_some_iff.1 hk
    have hne : m ≠ .overflow k := fun h => by rw [h] at hm; cases hm
    simp only [List.mem_append, List.mem_singleton, hne, or_false] at h
    simp [h]
  · split <;> simp [h]

theorem Link.noticed_busy {l : Link} (n : Notice) (h : l.tx ≠ none) :
    l.noticed n = { l with notices := takeNotice n l.notices } := Link.pump_busy h

theorem Link.keeps_noticed (n : Notice) (l : Link) : l.Keeps (l.noticed n) := fun h => by
  rw [Link.noticed_busy n h]
  exact ⟨h, fun m hm hover => takeNotice_mem n hm hover, takeNotice_overflow n⟩

/-- An operation that leaves the outgoing line alone keeps its notices. -/
theorem Same.link {xs : List Piece} {e f : Engine} {l : Link} (h : Same xs e f) (k : l.Keeps e.link)
    (ho : Piece.outgoing ∉ xs := by decide) : l.Keeps f.link := fun htx => by
  obtain ⟨-, tx, notices⟩ := h .outgoing ho
  rw [tx, notices]
  exact k htx

/-! ## An offered notice (R191) -/

@[simp] theorem offer_seq (n : Notice) (e : Engine) : (e.offer n).seq = e.seq := by unfold Engine.offer; split <;> rfl
@[simp] theorem offer_faults (n : Notice) (e : Engine) : (e.offer n).faults = e.faults := by
  unfold Engine.offer; split <;> rfl
@[simp] theorem offer_power (n : Notice) (e : Engine) : (e.offer n).power = e.power := by unfold Engine.offer; split <;> rfl
@[simp] theorem offer_wheel (n : Notice) (e : Engine) : (e.offer n).wheel = e.wheel := by unfold Engine.offer; split <;> rfl
@[simp] theorem offer_selfTest (n : Notice) (e : Engine) : (e.offer n).selfTest = e.selfTest := by
  unfold Engine.offer; split <;> rfl

theorem offer_link {n : Notice} {e : Engine} (on : e.power.state ≠ .deepOff) : (e.offer n).link = e.link.noticed n := by
  simp only [Engine.offer, on, if_false]
  rfl

theorem offer_keeps {n : Notice} {e : Engine} {l : Link} (h : l.Keeps e.link) : l.Keeps (e.offer n).link := by
  by_cases on : e.power.state = .deepOff
  · simp only [Engine.offer, on, if_true]
    exact h
  · rw [offer_link on]
    exact h.trans (Link.keeps_noticed n _)

/-- Behind a frame on the line and with nothing waiting, an offered notice stands in the queue. -/
theorem offer_raises {n : Notice} {e : Engine} (on : e.power.state ≠ .deepOff) (htx : e.link.tx ≠ none)
    (hn : e.link.notices = []) : (e.offer n).raised n := by
  rw [Engine.raised, offer_link on, Link.noticed_busy n htx, hn]
  exact List.mem_singleton_self n

/-- Behind a frame on the line an offered notice stands in the queue, or OVERFLOW does. -/
theorem offer_taken {n : Notice} {e : Engine} (on : e.power.state ≠ .deepOff) (htx : e.link.tx ≠ none) :
    (e.offer n).raised n ∨ (e.offer n).overflowed := by
  rw [Engine.raised, Engine.overflowed, offer_link on, Link.noticed_busy n htx]
  exact takeNotice_taken n _

theorem offerAll_seq (ns : List Notice) (e : Engine) : (e.offerAll ns).seq = e.seq := by
  induction ns generalizing e with
  | nil => rfl
  | cons n ns ih => exact (ih _).trans (offer_seq n e)

theorem offerAll_keeps {ns : List Notice} {e : Engine} {l : Link} (h : l.Keeps e.link) :
    l.Keeps (e.offerAll ns).link := by
  induction ns generalizing e with
  | nil => exact h
  | cons n ns ih => exact ih (offer_keeps h)

/-! ## The stages of settling: what each does to the orders -/

theorem closeGroups_seq (e : Engine) :
    e.closeGroups.seq = { e.seq with groups := e.seq.groups.filter fun g => g.remaining ≠ 0 } := offerAll_seq _ _

theorem closeGroups_keeps {e : Engine} {l : Link} (h : l.Keeps e.link) : l.Keeps e.closeGroups.link := offerAll_keeps h

/-- A stale LIFT leaves the queue, and its group counts it (R68). -/
theorem dropStale_seq (o : Order) (e : Engine) : (e.dropStale o).seq = { e.seq with
    queue := e.seq.queue.filter fun q => q.number ≠ o.number
    groups := (e.seq.groups.map fun g => if g.id = o.group then
      { g with remaining := g.remaining - 1, notExecuted := g.notExecuted + 1, stale := true } else g).filter
        fun g => g.remaining ≠ 0 } := closeGroups_seq _

theorem dropStale_keeps {o : Order} {e : Engine} {l : Link} (h : l.Keeps e.link) : l.Keeps (e.dropStale o).link :=
  closeGroups_keeps h

/-- Draining moves orders from the front of the release stage to the end of the queue (R81). -/
theorem drain_orders (e : Engine) : ∃ k, e.drain.seq.queue = e.seq.queue ++ e.seq.stage.take k ∧
    e.drain.seq.stage = e.seq.stage.drop k := by
  unfold Engine.drain
  split
  · exact ⟨_, rfl, rfl⟩
  · exact ⟨0, by simp, by simp⟩

theorem drain_append (e : Engine) : e.drain.seq.queue ++ e.drain.seq.stage = e.seq.queue ++ e.seq.stage := by
  obtain ⟨k, hq, hs⟩ := drain_orders e
  rw [hq, hs, List.append_assoc, List.take_append_drop]

theorem drain_not_filling {e : Engine} (h : e.seq.stageState ≠ .filling) : e.drain = e := if_neg h

@[simp] theorem drain_state (e : Engine) : e.drain.seq.state = e.seq.state := by unfold Engine.drain; split <;> rfl
@[simp] theorem drain_groups (e : Engine) : e.drain.seq.groups = e.seq.groups := by unfold Engine.drain; split <;> rfl
@[simp] theorem rouse_queue (e : Engine) : e.rouse.seq.queue = e.seq.queue := by unfold Engine.rouse; split <;> rfl
@[simp] theorem rouse_stage (e : Engine) : e.rouse.seq.stage = e.seq.stage := by unfold Engine.rouse; split <;> rfl
@[simp] theorem rouse_stageState (e : Engine) : e.rouse.seq.stageState = e.seq.stageState := by
  unfold Engine.rouse; split <;> rfl
@[simp] theorem rouse_groups (e : Engine) : e.rouse.seq.groups = e.seq.groups := by unfold Engine.rouse; split <;> rfl

theorem rouse_awake {e : Engine} (h : e.seq.state ≠ .idle) : e.rouse = e := if_neg fun k => h k.1

@[simp] theorem gate_queue (e : Engine) : e.gate.seq.queue = e.seq.queue := by unfold Engine.gate; split <;> rfl
@[simp] theorem gate_stage (e : Engine) : e.gate.seq.stage = e.seq.stage := by unfold Engine.gate; split <;> rfl
@[simp] theorem gate_state (e : Engine) : e.gate.seq.state = e.seq.state := by unfold Engine.gate; split <;> rfl
@[simp] theorem gate_groups (e : Engine) : e.gate.seq.groups = e.seq.groups := by unfold Engine.gate; split <;> rfl

theorem gate_not_held {e : Engine} (h : e.seq.stageState ≠ .held) : e.gate = e := if_neg fun k => h k.1

@[simp] theorem rest_queue (e : Engine) : e.rest.seq.queue = e.seq.queue := by unfold Engine.rest; split <;> rfl
@[simp] theorem rest_stage (e : Engine) : e.rest.seq.stage = e.seq.stage := by unfold Engine.rest; split <;> rfl
@[simp] theorem rest_stageState (e : Engine) : e.rest.seq.stageState = e.seq.stageState := by
  unfold Engine.rest; split <;> rfl
@[simp] theorem rest_groups (e : Engine) : e.rest.seq.groups = e.seq.groups := by unfold Engine.rest; split <;> rfl

theorem liftTo_seq (p : LiftTarget) (use : LiftUse) (e : Engine) : (e.liftTo p use).seq = e.seq := by
  unfold Engine.liftTo
  split
  · split <;> rfl
  · split
    · split <;> rfl
    · rfl
  · rfl

/-- The lift move that waits begins, or the sequencer stays as it is (R71, R76, R77). -/
theorem viewLift_seq (e : Engine) : ∃ b, e.viewLift.seq = { e.seq with liftToView := b } := by
  unfold Engine.viewLift
  split
  · exact ⟨false, liftTo_seq _ _ _⟩
  · exact ⟨e.seq.liftToView, rfl⟩

/-- What settling leaves of power control: all but an entry that is given up and the standby timer (R180, R181). -/
def Power.core (p : Power) : Power := { p with entering := none, pendingEntry := none, conditions := false, timer := none }

theorem dropEntry_eq (e : Engine) : ∃ q : Power, e.dropEntry = { e with power := q } ∧ q.core = e.power.core := by
  unfold Engine.dropEntry Engine.giveUpEntry
  split
  · exact ⟨_, rfl, rfl⟩
  · split <;> exact ⟨_, rfl, rfl⟩

theorem standbyUpdate_eq (e : Engine) :
    ∃ q : Power, e.standbyUpdate = { e with power := q } ∧ q.core = e.power.core := by
  unfold Engine.standbyUpdate
  split
  · exact ⟨_, rfl, rfl⟩
  · split <;> exact ⟨_, rfl, rfl⟩

/-! ## Faults that are written (R76, R164, R165) -/

/-- The sequencer once a fault has been written. -/
theorem becomeFaulted_seq (kind : FaultKind) (e : Engine) :
    ∃ t b, (e.becomeFaulted kind).seq = { e.seq with
      state := if e.seq.state = .stopped then .stopped else .faulted, viewTimer := t, liftToView := b } := by
  simp only [Engine.becomeFaulted]
  by_cases h : e.seq.state = .stopped
  · refine ⟨e.seq.viewTimer, e.seq.liftToView, ?_⟩
    simp only [h, if_true]
    rw [← h]
  · simp only [h, if_false]
    by_cases hf : e.seq.state = .faulted
    · simp only [hf, if_true]
      split
      · exact ⟨e.seq.viewTimer, false, by rw [← hf]⟩
      · exact ⟨e.seq.viewTimer, e.seq.liftToView, by rw [← hf]⟩
    · simp only [hf, if_false]
      exact ⟨_, _, rfl⟩

theorem writeFault_seq (slot : SlotName) (new : FaultSlot) (e : Engine) :
    ∃ t b, (e.writeFault slot new).seq = { e.seq with
      state := if e.seq.state = .stopped then .stopped else .faulted, viewTimer := t, liftToView := b } := by
  unfold Engine.writeFault
  cases slot
  all_goals
    simp only
    split
    · rw [offer_seq]
      exact becomeFaulted_seq _ _
    · exact becomeFaulted_seq _ _

theorem writeFault_keeps {slot : SlotName} {new : FaultSlot} {e : Engine} {l : Link} (h : l.Keeps e.link) :
    l.Keeps (e.writeFault slot new).link := by
  unfold Engine.writeFault
  cases slot
  all_goals
    simp only
    split
    · exact offer_keeps ((becomeFaulted_same _ _).link h)
    · exact (becomeFaulted_same _ _).link h

/-- What writing the held failure of the P order does: nothing, or the P slot takes it (R68). -/
theorem writeHeld_cases (e : Engine) : e.writeHeld = e ∨ ∃ o k, e.pOrder = some o ∧ o.held = some k ∧
    o.heldWritten = false ∧ e.writeHeld =
      ((e.nameOrder o).writeFault .p ((e.nameOrder o).faultOf k (some o) false none)).editOrder o.number
        fun o => { o with heldWritten := true } := by
  unfold Engine.writeHeld
  split
  · exact .inl rfl
  · split
    · exact .inl rfl
    · rename_i o ho _ k hk
      by_cases hw : o.heldWritten = true
      · simp [hw]
      · refine .inr ⟨o, k, ho, hk, by simpa using hw, ?_⟩
        rw [if_neg hw]

theorem writeHeld_keeps {e : Engine} {l : Link} (he : l.Keeps e.link) : l.Keeps e.writeHeld.link := by
  rcases writeHeld_cases e with h | ⟨o, k, -, -, -, h⟩ <;> rw [h]
  · exact he
  · exact writeFault_keeps (e := e.nameOrder o) he

/-- Writing the held failure changes no order but the P order, which only notes that it is written. -/
theorem writeHeld_orders (e : Engine) :
    e.writeHeld.seq.stage = e.seq.stage ∧ e.writeHeld.seq.stageState = e.seq.stageState ∧
    e.writeHeld.seq.groups = e.seq.groups ∧
    (e.writeHeld.seq.queue = e.seq.queue ∨ ∃ o, e.pOrder = some o ∧ e.writeHeld.seq.queue =
      e.seq.queue.map fun p => if p.number = o.number then { p with heldWritten := true } else p) := by
  rcases writeHeld_cases e with h | ⟨o, k, ho, -, -, h⟩ <;> rw [h]
  · exact ⟨rfl, rfl, rfl, .inl rfl⟩
  · obtain ⟨t, b, hs⟩ := writeFault_seq .p ((e.nameOrder o).faultOf k (some o) false none) (e.nameOrder o)
    simp only [Engine.editOrder, hs]
    exact ⟨rfl, rfl, rfl, .inr ⟨o, ho, rfl⟩⟩

theorem writeHeld_state (e : Engine) :
    (e.seq.state = .stopped → e.writeHeld.seq.state = .stopped) ∧
    (e.seq.state = .faulted → e.writeHeld.seq.state = .faulted) := by
  rcases writeHeld_cases e with h | ⟨o, k, -, -, -, h⟩ <;> rw [h]
  · exact ⟨id, id⟩
  · obtain ⟨t, b, hs⟩ := writeFault_seq .p ((e.nameOrder o).faultOf k (some o) false none) (e.nameOrder o)
    simp only [Engine.editOrder, hs]
    exact ⟨fun h => if_pos h, fun h => if_neg (by rw [show (e.nameOrder o).seq = e.seq from rfl, h]; decide)⟩

/-- The P slot takes no fault from the X slot. -/
theorem writeHeld_x (e : Engine) : e.writeHeld.faults.x = e.faults.x := by
  have hfault : ∀ (new : FaultSlot) (d : Engine), (d.writeFault .p new).faults.x = d.faults.x := fun new d => by
    have hb : ∀ (k : FaultKind) (d : Engine), (d.becomeFaulted k).faults = d.faults := fun k d =>
      becomeFaulted_same k d .faults (by decide)
    unfold Engine.writeFault
    simp only
    split <;> simp [hb]
  rcases writeHeld_cases e with h | ⟨o, k, -, -, -, h⟩ <;> rw [h]
  exact hfault _ _

/-! ## What preparing and settling keep, stage by stage -/

/-- A property of the part that the prepare stage keeps (R67 to R69, R81). -/
structure PrepareKeeps (P : Engine → Prop) : Prop where
  drain : ∀ {e : Engine}, P e → P e.drain
  rouse : ∀ {e : Engine}, P e → P e.rouse
  stale : ∀ {e : Engine} {o : Order}, P e → e.pOrder = some o → e.check o = .stale → P (e.dropStale o)
  check : ∀ {e : Engine} {o : Order}, P e → e.pOrder = some o →
    P (e.editOrder o.number (·.prepared (e.check o)))

/-- A property of the part that settling keeps. -/
structure SettleKeeps (P : Engine → Prop) : Prop extends PrepareKeeps P where
  gate : ∀ {e : Engine}, P e → P e.gate
  held : ∀ {e : Engine}, P e → e.executing = none ∨ e.faults.p ≠ none → P e.writeHeld
  rest : ∀ {e : Engine}, P e → P e.rest
  lift : ∀ {e : Engine}, P e → P e.viewLift
  power : ∀ {e : Engine} {q : Power}, q.core = e.power.core → P e → P { e with power := q }
  found : ∀ {e : Engine}, P e → P { e with wheel := { e.wheel with found := e.wheel.mounted } }

theorem PrepareKeeps.loop {P : Engine → Prop} (h : PrepareKeeps P) (fuel : Nat) {e : Engine} (he : P e) :
    P (prepareLoop fuel e) := by
  induction fuel generalizing e with
  | zero => exact he
  | succ fuel ih =>
    have hflow := h.rouse (h.drain he)
    unfold prepareLoop
    simp only
    split
    · exact hflow
    · rename_i o ho
      split
      · split
        · exact ih (h.stale hflow ho ‹_›)
        · exact h.check hflow ho
      · exact hflow

theorem PrepareKeeps.prepare {P : Engine → Prop} (h : PrepareKeeps P) {e : Engine} (he : P e) : P e.prepare :=
  h.loop _ he

theorem SettleKeeps.settle {P : Engine → Prop} (h : SettleKeeps P) {e : Engine} (he : P e) : P e.settle := by
  have hheld : ∀ d : Engine, P d → P d.heldNow := fun d hd => by
    unfold Engine.heldNow
    split
    · rename_i hnow
      refine h.held hd ?_
      simpa [Option.isNone_iff_eq_none, Option.isSome_iff_ne_none] using hnow
    · exact hd
  have hentry : ∀ d : Engine, P d → P d.dropEntry := fun d hd => by
    obtain ⟨q, hq, hs⟩ := dropEntry_eq d
    rw [hq]
    exact h.power hs hd
  have hstandby : ∀ d : Engine, P d → P d.standbyUpdate := fun d hd => by
    obtain ⟨q, hq, hs⟩ := standbyUpdate_eq d
    rw [hq]
    exact h.power hs hd
  exact h.found (hstandby _ (hentry _ (h.lift (h.rest (hheld _ (h.prepare (h.gate he)))))))

/-- A sequencer that is STOPPED or FAULTED stays so. -/
theorem settleKeeps_state {st : SeqState} (h : st = .stopped ∨ st = .faulted) :
    SettleKeeps fun e => e.seq.state = st := by
  have hidle : st ≠ .idle := by rcases h with rfl | rfl <;> decide
  have hrun : st ≠ .running := by rcases h with rfl | rfl <;> decide
  exact {
    drain := fun he => (drain_state _).trans he
    rouse := fun he => by rwa [rouse_awake (he.trans_ne hidle)]
    stale := fun he _ _ => by rwa [dropStale_seq]
    check := fun he _ => he
    gate := fun he => (gate_state _).trans he
    held := fun {e} he _ => by
      rcases h with rfl | rfl
      · exact (writeHeld_state e).1 he
      · exact (writeHeld_state e).2 he
    rest := fun {e} he => by
      have : ¬ (e.seq.state = .running ∧ e.seq.queue = []) := fun k => hrun (he.symm.trans k.1)
      rwa [Engine.rest, if_neg this]
    lift := fun {e} he => by
      obtain ⟨b, hs⟩ := viewLift_seq e
      rwa [hs]
    power := fun _ he => he
    found := fun he => he }

/-- The X slot is not touched. -/
theorem settleKeeps_x (x : Option FaultSlot) : SettleKeeps fun e => e.faults.x = x where
  drain := fun {e} he => (congrArg FaultRecord.x (drain_same e .faults (by decide))).trans he
  rouse := fun {e} he => (congrArg FaultRecord.x (rouse_same e .faults (by decide))).trans he
  stale := fun {e o} he _ _ => (congrArg FaultRecord.x (dropStale_same o e .faults (by decide))).trans he
  check := fun he _ => he
  gate := fun {e} he => (congrArg FaultRecord.x (gate_same e .faults (by decide))).trans he
  held := fun {e} he _ => (writeHeld_x e).trans he
  rest := fun {e} he => (congrArg FaultRecord.x (rest_same e .faults (by decide))).trans he
  lift := fun {e} he => (congrArg FaultRecord.x (viewLift_same e .faults (by decide))).trans he
  power := fun _ he => he
  found := fun he => he

/-- Notices that stand in the queue stay. -/
theorem settleKeeps_link (l : Link) : SettleKeeps fun e => l.Keeps e.link where
  drain := fun {e} he => (drain_same e).link he
  rouse := fun {e} he => (rouse_same e).link he
  stale := fun he _ _ => dropStale_keeps he
  check := fun he _ => he
  gate := fun {e} he => (gate_same e).link he
  held := fun he _ => writeHeld_keeps he
  rest := fun {e} he => (rest_same e).link he
  lift := fun {e} he => (viewLift_same e).link he
  power := fun _ he => he
  found := fun he => he

theorem settle_link (e : Engine) : e.link.Keeps e.settle.link := (settleKeeps_link e.link).settle (.refl _)

theorem settle_x (e : Engine) : e.settle.faults.x = e.faults.x := (settleKeeps_x _).settle rfl

theorem offerAll_power (ns : List Notice) (e : Engine) : (e.offerAll ns).power = e.power := by
  induction ns generalizing e with
  | nil => rfl
  | cons n ns ih => exact (ih _).trans (offer_power n e)

theorem settle_power (e : Engine) : e.settle.power.core = e.power.core := by
  have h : SettleKeeps fun d => d.power.core = e.power.core := {
    drain := fun {d} he => by unfold Engine.drain; split <;> exact he
    rouse := fun {d} he => by unfold Engine.rouse; split <;> exact he
    stale := fun {d o} he _ _ => (congrArg Power.core (offerAll_power _ _)).trans he
    check := fun he _ => he
    gate := fun {d} he => by unfold Engine.gate; split <;> exact he
    held := fun {d} he _ => by
      have k : Piece.power.same d d.writeHeld := writeHeld_same d .power (by decide)
      exact (congrArg Power.core k).trans he
    rest := fun {d} he => by unfold Engine.rest; split <;> exact he
    lift := fun {d} he => by
      have k : Piece.power.same d d.viewLift := viewLift_same d .power (by decide)
      exact (congrArg Power.core k).trans he
    power := fun hq he => hq.trans he
    found := fun he => he }
  exact h.settle rfl

theorem Power.core_state {p q : Power} (h : p.core = q.core) : p.state = q.state := (congrArg Power.state h :)

theorem Power.core_wake {p q : Power} (h : p.core = q.core) : p.wake = q.wake := (congrArg Power.wake h :)

theorem settle_power_state (e : Engine) : e.settle.power.state = e.power.state := Power.core_state (settle_power e)

theorem settle_wake (e : Engine) : e.settle.power.wake = e.power.wake := Power.core_wake (settle_power e)

/-! ## The head order while it executes -/

/-- An order executes at the head of the queue, and no other order has its number (R65; log 9). -/
def Engine.Headed (o : Order) (e : Engine) : Prop :=
  o.state = .executing ∧ ∃ rest, e.seq.queue = o :: rest ∧ ∀ p ∈ rest ++ e.seq.stage, p.number ≠ o.number

theorem Engine.Headed.executing {o : Order} {e : Engine} (h : e.Headed o) : e.executing = some o := by
  obtain ⟨hx, rest, hq, -⟩ := h
  simp only [Engine.executing, hq, hx, if_true]

theorem Engine.Headed.head {o : Order} {e : Engine} (h : e.Headed o) : e.seq.queue.head? = some o := by
  obtain ⟨-, rest, hq, -⟩ := h
  rw [hq]
  rfl

/-- Only the head of the queue executes. -/
theorem executing_cons {o : Order} {e : Engine} (h : e.executing = some o) :
    o.state = .executing ∧ ∃ rest, e.seq.queue = o :: rest := by
  unfold Engine.executing at h
  split at h
  · rename_i p rest hq
    split at h
    · rename_i hp
      cases h
      exact ⟨hp, rest, hq⟩
    · cases h
  · cases h

theorem headed_of_executing {o : Order} {e : Engine} (hn : NumbersOk e.seq) (h : e.executing = some o) : e.Headed o := by
  obtain ⟨hx, rest, hq⟩ := executing_cons h
  refine ⟨hx, rest, hq, fun p hp heq => ?_⟩
  obtain ⟨hnodup, -⟩ := hn
  rw [hq, List.cons_append, List.map_cons, List.nodup_cons] at hnodup
  exact hnodup.1 (heq ▸ List.mem_map_of_mem hp)

theorem Engine.Headed.pOrder_ne {o p : Order} {e : Engine} (h : e.Headed o) (hp : e.pOrder = some p) :
    p.number ≠ o.number := by
  obtain ⟨hx, rest, hq, hne⟩ := h
  simp only [Engine.pOrder, hq, hx, if_true] at hp
  exact hne p (List.mem_append_left _ (List.mem_of_head? hp))

/-- A change of another order that keeps its number. -/
theorem Engine.Headed.edit {o : Order} {e : Engine} (h : e.Headed o) {n : Nat} (hn : n ≠ o.number) {f : Order → Order}
    (hf : ∀ p, (f p).number = p.number) : (e.editOrder n f).Headed o := by
  obtain ⟨hx, rest, hq, hne⟩ := h
  refine ⟨hx, rest.map fun p => if p.number = n then f p else p, ?_, fun p hp => ?_⟩
  · simp only [Engine.editOrder, hq, List.map_cons, if_neg hn.symm]
  · rcases List.mem_append.1 hp with hp | hp
    · obtain ⟨q, hq, rfl⟩ := List.mem_map.1 hp
      split
      · rw [hf]
        exact hne q (List.mem_append_left _ hq)
      · exact hne q (List.mem_append_left _ hq)
    · exact hne p (List.mem_append_right _ hp)

/-- With the orders of the queue and of the release stage in one row, as before, the head executes on. -/
theorem Engine.Headed.of_append {o : Order} {e f : Engine} (h : e.Headed o)
    (heq : f.seq.queue ++ f.seq.stage = e.seq.queue ++ e.seq.stage) (hne : f.seq.queue ≠ []) : f.Headed o := by
  obtain ⟨hx, rest, hq, hnum⟩ := h
  rw [hq] at heq
  cases hf : f.seq.queue with
  | nil => exact absurd hf hne
  | cons p more =>
    rw [hf, List.cons_append, List.cons_append, List.cons.injEq] at heq
    obtain ⟨rfl, heq⟩ := heq
    exact ⟨hx, more, hf, heq ▸ hnum⟩

theorem prepared_number (r : Check) (o : Order) : (o.prepared r).number = o.number := by
  unfold Order.prepared
  split
  · rfl
  · split <;> rfl
  · rfl
  · rfl

theorem Engine.Headed.writeHeld {o : Order} {e : Engine} (h : e.Headed o) : e.writeHeld.Headed o := by
  rcases writeHeld_cases e with k | ⟨p, kind, hp, -, -, k⟩ <;> rw [k]
  · exact h
  · obtain ⟨t, b, hs⟩ := writeFault_seq .p ((e.nameOrder p).faultOf kind (some p) false none) (e.nameOrder p)
    refine Engine.Headed.edit ?_ (h.pOrder_ne hp) fun _ => rfl
    rwa [Engine.Headed, hs]

/-- The executing head stays what it is. -/
theorem settleKeeps_headed (o : Order) : SettleKeeps (Engine.Headed o) where
  drain := fun {e} he => by
    refine he.of_append (drain_append e) ?_
    obtain ⟨k, hq, -⟩ := drain_orders e
    obtain ⟨-, rest, hr, -⟩ := he
    rw [hq, hr]
    exact List.cons_ne_nil _ _
  rouse := fun {e} he => by rwa [Engine.Headed, rouse_queue, rouse_stage]
  stale := fun {e p} he hp _ => by
    have hne := he.pOrder_ne hp
    obtain ⟨hx, rest, hq, hnum⟩ := he
    refine ⟨hx, rest.filter fun q => q.number ≠ p.number, ?_, fun q hq => ?_⟩
    · rw [dropStale_seq]
      simp only [hq]
      exact List.filter_cons_of_pos (by simpa using hne.symm)
    · rw [dropStale_seq] at hq
      rcases List.mem_append.1 hq with h | h
      · exact hnum q (List.mem_append_left _ (List.mem_filter.1 h).1)
      · exact hnum q (List.mem_append_right _ h)
  check := fun he hp => he.edit (he.pOrder_ne hp) (prepared_number _)
  gate := fun {e} he => by rwa [Engine.Headed, gate_queue, gate_stage]
  held := fun he _ => he.writeHeld
  rest := fun {e} he => by rwa [Engine.Headed, rest_queue, rest_stage]
  lift := fun {e} he => by
    obtain ⟨b, hs⟩ := viewLift_seq e
    rwa [Engine.Headed, hs]
  power := fun _ he => he
  found := fun he => he

end Sys2Proof.Machine
end

section
set_option Elab.async false
namespace Sys2Proof.Machine

/-! ## Nothing but an order owns a motion -/

/-- No test, recovery, re-homing, entry, lift step of start-up or way to DEEP_OFF takes a step of its own. -/
def Engine.Alone (e : Engine) : Prop :=
  e.selfTest = none ∧ e.seq.recovery = {} ∧ e.power.softReset = none ∧ e.power.entering = none ∧
  e.power.startUp ≠ some .lift ∧ e.power.deepOff = none

theorem Engine.aside.alone {e : Engine} (h : e.aside) : e.Alone := by
  obtain ⟨-, -, ht, hr, hs, he, hu, hd⟩ := h
  exact ⟨ht, hr, hs, he, by rw [hu]; decide, hd⟩

theorem Same.alone {xs : List Piece} {e f : Engine} (h : Same xs e f) (k : e.Alone)
    (hx : Piece.selfTest ∉ xs ∧ Piece.recovery ∉ xs ∧ Piece.power ∉ xs := by decide) : f.Alone := by
  obtain ⟨ht, hr, hs, he, hu, hd⟩ := k
  have test : f.selfTest = e.selfTest := h .selfTest hx.1
  have recovery : f.seq.recovery = e.seq.recovery := h .recovery hx.2.1
  have power : { f.power with timer := none, conditions := false } = { e.power with timer := none, conditions := false } :=
    h .power hx.2.2
  exact ⟨test.trans ht, recovery.trans hr, (congrArg Power.softReset power :).trans hs,
    (congrArg Power.entering power :).trans he, ((congrArg Power.startUp power :).trans_ne hu :),
    (congrArg Power.deepOff power :).trans hd⟩

theorem Same.power_state {xs : List Piece} {e f : Engine} (h : Same xs e f) (hp : Piece.power ∉ xs := by decide) :
    f.power.state = e.power.state := by
  have k : { f.power with timer := none, conditions := false } = { e.power with timer := none, conditions := false } :=
    h .power hp
  have d := congrArg Power.state k
  exact d

theorem advanceResumeWheel_none {e : Engine} (h : e.seq.recovery = {}) : e.advanceResumeWheel = e := by
  unfold Engine.advanceResumeWheel
  split
  · simp [h]
  · rfl

theorem advanceRecovery_none {e : Engine} (h : e.seq.recovery = {}) : e.advanceRecovery = e := by
  unfold Engine.advanceRecovery
  simp [advanceResumeWheel_none h, h]

theorem advanceRehoming_none {e : Engine} (h : e.power.softReset = none) : e.advanceRehoming = e := by
  simp only [Engine.advanceRehoming, h]

theorem advanceEntry_none {e : Engine} (h : e.power.entering = none) : e.advanceEntry = e := by
  simp only [Engine.advanceEntry, h]

theorem advanceTest_none {e : Engine} (fuel : Nat) (h : e.selfTest = none) : advanceTest fuel e = e := by
  cases fuel with
  | zero => rfl
  | succ fuel => simp only [advanceTest, h]

/-- With nothing but an order owning a motion, only the waiting lift move and the executing order go on. -/
theorem proceed_alone {e : Engine} (h : e.Alone) : e.proceed = e.viewLift.advanceOrder := by
  have hd := (advanceOrder_same e.viewLift).alone ((viewLift_same e).alone h)
  obtain ⟨ht, hr, hs, he, hu, ho⟩ := hd
  have hoff : ¬ e.viewLift.advanceOrder.power.deepOff = some .lifting := by rw [ho]; decide
  simp only [Engine.proceed, advanceTest_none 24 ht, advanceRecovery_none hr, advanceRehoming_none hs,
    advanceEntry_none he, Engine.advanceStartLift, if_neg hu, Engine.advanceDeepOff, if_neg hoff]

theorem after_alone {e : Engine} (h : e.Alone) (on : e.power.state ≠ .deepOff) :
    e.after = e.viewLift.advanceOrder.settle.refresh := by
  rw [Engine.after, if_neg on, proceed_alone h]

theorem viewLift_not_waiting {e : Engine} (h : e.seq.liftToView = false) : e.viewLift = e := by
  simp [Engine.viewLift, h]

theorem executing_viewLift (e : Engine) : e.viewLift.executing = e.executing := by
  obtain ⟨b, hs⟩ := viewLift_seq e
  simp only [Engine.executing, hs]

theorem advanceOrder_idle {e : Engine} (h : e.executing = none) : e.advanceOrder = e := by
  simp only [Engine.advanceOrder, h]

/-- With no order executing either, only the waiting lift move goes on. -/
theorem after_idle {e : Engine} (h : e.Alone) (hx : e.executing = none) (on : e.power.state ≠ .deepOff) :
    e.after = e.viewLift.settle.refresh := by
  rw [after_alone h on, advanceOrder_idle ((executing_viewLift e).trans hx)]

/-! ## Settling behind an order that executes without a fault -/

/-- An order executes with no P fault held, and the lift does not wait to go to VIEW. -/
def Engine.Working (o : Order) (timer : Timer) (l : Lift) (e : Engine) : Prop :=
  e.Headed o ∧ e.faults.p = none ∧ e.seq.viewTimer = timer ∧ e.seq.liftToView = false ∧ e.lift = l

/-- Settling leaves the executing order, the view timer and the lift alone while no P fault is held. -/
theorem settleKeeps_working (o : Order) (timer : Timer) (l : Lift) : SettleKeeps (Engine.Working o timer l) where
  drain := fun {e} ⟨hh, hp, ht, hv, hl⟩ => ⟨(settleKeeps_headed o).drain hh,
    (congrArg FaultRecord.p (drain_same e .faults (by decide))).trans hp,
    by unfold Engine.drain; split <;> exact ht, by unfold Engine.drain; split <;> exact hv,
    (drain_same e .lift (by decide) : _ = _).trans hl⟩
  rouse := fun {e} ⟨hh, hp, ht, hv, hl⟩ => ⟨(settleKeeps_headed o).rouse hh,
    (congrArg FaultRecord.p (rouse_same e .faults (by decide))).trans hp,
    by unfold Engine.rouse; split <;> exact ht, by unfold Engine.rouse; split <;> exact hv,
    (rouse_same e .lift (by decide) : _ = _).trans hl⟩
  stale := fun {e p} ⟨hh, hp, ht, hv, hl⟩ ho hs => ⟨(settleKeeps_headed o).stale hh ho hs,
    (congrArg FaultRecord.p (dropStale_same p e .faults (by decide))).trans hp,
    by rw [dropStale_seq]; exact ht, by rw [dropStale_seq]; exact hv,
    (dropStale_same p e .lift (by decide) : _ = _).trans hl⟩
  check := fun ⟨hh, hp, ht, hv, hl⟩ ho => ⟨(settleKeeps_headed o).check hh ho, hp, ht, hv, hl⟩
  gate := fun {e} ⟨hh, hp, ht, hv, hl⟩ => ⟨(settleKeeps_headed o).gate hh,
    (congrArg FaultRecord.p (gate_same e .faults (by decide))).trans hp,
    by unfold Engine.gate; split <;> exact ht, by unfold Engine.gate; split <;> exact hv,
    (gate_same e .lift (by decide) : _ = _).trans hl⟩
  held := fun ⟨hh, hp, _⟩ hnow => by
    rcases hnow with h | h
    · rw [hh.executing] at h
      cases h
    · exact absurd hp h
  rest := fun {e} ⟨hh, h⟩ => by
    have hq : ¬ (e.seq.state = .running ∧ e.seq.queue = []) := fun k => by
      have := hh.head
      rw [k.2] at this
      cases this
    rw [Engine.rest, if_neg hq]
    exact ⟨hh, h⟩
  lift := fun {e} ⟨hh, hp, ht, hv, hl⟩ => by
    rw [viewLift_not_waiting hv]
    exact ⟨hh, hp, ht, hv, hl⟩
  power := fun _ he => he
  found := fun he => he

/-! ## The next step of an executing order, kind by kind (R71) -/

section kinds
variable {e : Engine} {o : Order}

theorem advanceOrder_ret {n : Nat} (hx : e.executing = some o) (hf : e.faults.empty = true) (hk : o.kind = .ret n) :
    e.advanceOrder =
      if o.phase = .feeding then (if e.platen.state = .idle then e.completeOrder o else e)
      else if e.carriage.at o.horizontal then (if e.mayFeed then e.startFeed o n else e) else e.travel o := by
  simp [Engine.advanceOrder, hx, hf, hk]

theorem advanceOrder_feed {n : Int} (hx : e.executing = some o) (hf : e.faults.empty = true) (hk : o.kind = .feed n) :
    e.advanceOrder =
      if o.phase = .feeding then (if e.platen.state = .idle then e.completeOrder o else e)
      else if e.mayFeed then e.startFeed o n else e := by
  simp [Engine.advanceOrder, hx, hf, hk]

theorem advanceOrder_change {x : Nat} (hx : e.executing = some o) (hf : e.faults.empty = true)
    (hk : o.kind = .wheelChange x) : e.advanceOrder = e.advanceChange o := by
  simp [Engine.advanceOrder, hx, hf, hk]

theorem advanceOrder_lift {r : LiftRef} (hx : e.executing = some o) (hf : e.faults.empty = true) (hk : o.kind = .lift r) :
    e.advanceOrder = e.advanceFires o := by
  simp [Engine.advanceOrder, hx, hf, hk]

/-- The two PAPER orders feed 72 and 528 steps (R71). -/
theorem advanceOrder_paper {p : OrderKind × Nat} (hp : p ∈ [(OrderKind.paperLoad, 72), (.paperEject, 528)])
    (hx : e.executing = some o) (hf : e.faults.empty = true) (hk : o.kind = p.1) :
    e.advanceOrder = e.advancePaper o p.2 := by
  simp only [List.mem_cons, List.not_mem_nil, or_false] at hp
  rcases hp with rfl | rfl <;> simp [Engine.advanceOrder, hx, hf, hk]

end kinds

theorem faults_empty_iff (f : FaultRecord) : f.empty = true ↔ f.x = none ∧ f.p = none := empty_iff f

/-! ## Motions that an order commands (R87, R90, R96) -/

theorem mayTravel_of_quiet {e : Engine} (h : e.quiet) : e.mayTravel = true := by
  obtain ⟨hp, hon, hrest⟩ := h
  simp [Engine.mayTravel, Engine.hammerQuiet, hp, hon, hrest]

theorem hammerQuiet_of_quiet {e : Engine} (h : e.quiet) : e.hammerQuiet = true := by
  obtain ⟨-, hon, hrest⟩ := h
  simp [Engine.hammerQuiet, hon, hrest]

theorem mayFeed_of_quiet {e : Engine} (h : e.quiet) (hc : e.carriage.busy = false) (hl : e.lift.state ≠ .moving) :
    e.mayFeed = true := by
  simp [Engine.mayFeed, hc, hl, hammerQuiet_of_quiet h, h.1]

theorem idle_not_busy {c : Carriage} (h : c.state = .idle) : c.busy = false := by simp [Carriage.busy, h]

theorem carriage_at_iff {c : Carriage} (h : c.state = .idle) (x : Nat) : c.at x = true ↔ c.position = min 1599 x := by
  simp [Carriage.at, h]

theorem carriage_at_moving {c : Carriage} (h : c.state = .moving) (x : Nat) : c.at x = false := by
  simp [Carriage.at, h]

theorem carriageTo_sent {e : Engine} (x : Nat) (h : e.carriage.state = .idle) :
    e.carriageTo x .order = { e with carriage := e.carriage.sent (min 1599 x) } := by
  simp only [Engine.carriageTo, h, Carriage.sent]
  split <;> rfl

theorem carriageTo_moving {e : Engine} (x : Nat) (use : CarriageUse) (h : e.carriage.state = .moving) :
    e.carriageTo x use = e := by
  simp only [Engine.carriageTo, h]

/-- A carriage that was sent is on its way, or was there. -/
theorem sent_cases (c : Carriage) (x : Nat) :
    (c.position = x ∧ c.sent x = c) ∨ (c.position ≠ x ∧ (c.sent x).state = .moving) := by
  unfold Carriage.sent
  split
  · exact .inl ⟨‹_›, rfl⟩
  · exact .inr ⟨‹_›, rfl⟩

/-- Sending a carriage twice is sending it once. -/
theorem carriageTo_again {e : Engine} {c : Carriage} {x : Nat} (hc : c.state = .idle)
    (h : e.carriage = c.sent (min 1599 x)) : e.carriageTo x .order = e := by
  rcases sent_cases c (min 1599 x) with ⟨hp, hs⟩ | ⟨-, hs⟩
  · rw [carriageTo_sent x (by rw [h, hs, hc]), h, hs, Carriage.sent, if_pos hp, ← hs, ← h]
  · exact carriageTo_moving x _ (by rw [h, hs])

theorem readsView_iff (e : Engine) : e.pins.lift = some .view ↔ e.readsView := by
  simp only [Pins.lift, Engine.readsView]
  cases e.pins.lsw1Closed <;> cases e.pins.lsw0Closed <;> simp [readSwitches]

theorem liftTo_sent {e : Engine} (p : LiftTarget) (h : e.lift.state ≠ .moving) :
    e.liftTo p .order = { e with lift := e.liftSent p } := by
  unfold Engine.liftTo Engine.liftSent
  simp only [readsView_iff]
  split
  · rename_i q hq
    by_cases hqp : q = p
    · subst hqp
      simp [hq]
    · simp [hq, hqp]
  · rename_i hu
    by_cases hv : e.readsView
    · by_cases hp : p = .view <;> simp [hu, eq_true hv, hp]
    · simp [hu, eq_false hv]
  · exact absurd ‹_› h

theorem liftTo_still {e : Engine} {p : LiftTarget} (use : LiftUse) (h : e.lift.state = .moving ∨ e.lift.state = .held p) :
    e.liftTo p use = e := by
  rcases h with h | h <;> simp [Engine.liftTo, h]

/-- A lift that was sent is on its way, or at the place. -/
theorem liftSent_cases {e : Engine} (p : LiftTarget) :
    (e.liftSent p).state = .moving ∨ ((e.liftSent p).state = .held p ∧
      (e.lift.state = .held p ∨ (e.lift.state = .unknown ∧ e.readsView ∧ p = .view))) := by
  unfold Engine.liftSent
  simp only
  split
  · exact .inr ⟨‹_›, .inl ‹_›⟩
  · split
    · rename_i h
      exact .inr ⟨by rw [h.2.2], .inr h⟩
    · exact .inl rfl

/-! ## The start of an order (R70) -/

/-- The head order as it starts. -/
def Order.started (copy : Option LiftCopy) (o : Order) : Order :=
  { o with state := .executing, phase := .start, copy := copy }

/-- The part with its head order started, before its first step. -/
def Engine.startedWith (copy : Option LiftCopy) (o : Order) (rest : List Order) (e : Engine) : Engine :=
  { e with seq := { e.seq with queue := o.started copy :: rest, viewTimer := none } }

theorem startedWith_same (copy : Option LiftCopy) (o : Order) (rest : List Order) (e : Engine) :
    Same [.queue] e (e.startedWith copy o rest) := withStart_same _ _ e

theorem startedWith_headed {copy : Option LiftCopy} {o : Order} {rest : List Order} {e : Engine} (hn : NumbersOk e.seq)
    (hq : e.seq.queue = o :: rest) : (e.startedWith copy o rest).Headed (o.started copy) := by
  refine ⟨rfl, rest, rfl, fun p hp heq => ?_⟩
  obtain ⟨hnodup, -⟩ := hn
  rw [hq, List.cons_append, List.map_cons, List.nodup_cons] at hnodup
  exact hnodup.1 (heq ▸ List.mem_map_of_mem hp)

theorem startHead_started {e : Engine} {o : Order} {rest : List Order} (aside : e.aside) (runs : e.sequences)
    (hq : e.seq.queue = o :: rest) (ho : o.state = .prepared) :
    e.startHead = (e.startedWith (e.takeCopy o) o rest).advanceOrder := by
  obtain ⟨-, hwake, htest, hrec, -⟩ := aside
  obtain ⟨hrun, hx, hp, hstate, hpause, -⟩ := runs
  have may : e.mayStart = true := by
    simp [Engine.mayStart, hrun, hwake, (faults_empty_iff _).2 ⟨hx, hp⟩, hstate, hpause, htest, hrec, Recovery.over]
  simp only [Engine.startHead, hq, ho, may, and_self, if_true]
  rfl

/-- An order whose first step, taken again, changes nothing more: after ORDER_START the part is what that step leaves,
settled. -/
theorem orderStart_steps {s : State} {o p : Order} {rest : List Order} {touched : List Piece} {f : Engine}
    (aside : s.aside) (runs : s.sequences) (hq : s.seq.queue = o :: rest)
    (ho : o.state = .prepared) (hstep : (s.startedWith (s.takeCopy o) o rest).advanceOrder = f)
    (again : f.advanceOrder = f) (head : f.Headed p) (htimer : f.seq.viewTimer = none)
    (hlift : f.seq.liftToView = false)
    (hf : Same (touched ++ settleParts) (s.startedWith (s.takeCopy o) o rest) f) :
    ∃ t, exec .orderStart s = .next t ∧ t.seq.viewTimer = none ∧ t.lift = f.lift ∧
      Same settleParts f t.toEngine ∧ Keeps (touched ++ settleParts) s t ∧ t.seq.queue.head? = some p := by
  have started := startedWith_same (s.takeCopy o) o rest s.toEngine
  have steps : Same (.queue :: orderParts) s.toEngine f :=
    (started.mono (by decide)).trans (hstep ▸ (advanceOrder_same _).mono (by decide))
  have on : f.power.state ≠ .deepOff := (steps.power_state).trans_ne aside.1
  have hpfault : f.faults.p = none := (congrArg FaultRecord.p (steps .faults (by decide))).trans runs.2.2.1
  have heq : s.startHead.after = f.settle.refresh := by
    rw [startHead_started aside runs hq ho, hstep, after_alone (steps.alone (Engine.aside.alone aside)) on,
      viewLift_not_waiting hlift, again]
  obtain ⟨hhead, -, ht, -, hl⟩ := (settleKeeps_working p none f.lift).settle ⟨head, hpfault, htimer, hlift, rfl⟩
  have settles : Same settleParts f f.settle.refresh := (settle_same f).trans ((refresh_same _).mono (List.nil_subset _))
  refine ⟨s.on fun e => e.startHead.after, rfl, ?_, ?_, ?_, ⟨rfl, ?_⟩, ?_⟩ <;> simp only [State.on, heq]
  · rw [Engine.refresh_seq, ht]
  · rw [Engine.refresh_lift, hl]
  · exact settles
  · have hsub : settleParts ⊆ touched ++ settleParts := List.subset_append_right _ _
    exact (started.mono (fun x hx => hsub (by rw [List.mem_singleton.1 hx]; decide))).trans
      (hf.trans (settles.mono hsub))
  · rw [Engine.refresh_seq, hhead.head]

end Sys2Proof.Machine
end

section
set_option Elab.async false
namespace Sys2Proof.Machine

/-! ## First steps of the orders without fires (R59, R71, R101) -/

/-- A change of the executing order that keeps its number and its state. -/
theorem Engine.Headed.editHead {o : Order} {e : Engine} (h : e.Headed o) {f : Order → Order}
    (hn : (f o).number = o.number) (hs : (f o).state = .executing) : (e.editOrder o.number f).Headed (f o) := by
  obtain ⟨-, rest, hq, hne⟩ := h
  have hrest : (rest.map fun p => if p.number = o.number then f p else p) = rest :=
    (List.map_congr_left fun p hp => if_neg (hne p (List.mem_append_left _ hp))).trans (List.map_id rest)
  refine ⟨hs, rest, ?_, fun p hp => (hne p hp).trans_eq hn.symm⟩
  simp only [Engine.editOrder, hq, List.map_cons, if_true, hrest]

theorem Engine.Headed.setPhase {o : Order} {e : Engine} (h : e.Headed o) (p : Phase) :
    (e.setPhase o p).Headed { o with phase := p } :=
  h.editHead (f := fun o => { o with phase := p }) rfl h.1

/-- The platen with a feed begun (R94). -/
def Platen.fed (n : Nat) (forward : Bool) (p : Platen) : Platen :=
  { p with state := .feeding, remaining := n, forward := forward, timer := some 20000 }

theorem startFeed_eq {e : Engine} (o : Order) {steps : Int} (h : steps ≠ 0) : e.startFeed o steps =
    { e.setPhase o .feeding with platen := e.platen.fed steps.natAbs (decide (0 < steps)) } := by
  simp only [Engine.startFeed, h, if_false, Engine.feed]
  rfl

section steps
variable {e : Engine} {o : Order}

theorem travel_again {c : Carriage} (hc : c.state = .idle) (h : e.carriage = c.sent (min 1599 o.horizontal)) :
    e.travel o = e := by
  unfold Engine.travel
  split
  · exact carriageTo_again hc h
  · rfl

/-- A RETURN away from its target sends the carriage there. -/
theorem ret_travels {n : Nat} (head : e.Headed o) (hf : e.faults.empty = true) (hk : o.kind = .ret n)
    (hphase : o.phase = .start) (quiet : e.quiet) (hc : e.carriage.state = .idle)
    (hpos : e.carriage.position ≠ min 1599 o.horizontal) :
    let f : Engine := { e with carriage := e.carriage.sent (min 1599 o.horizontal) }
    e.advanceOrder = f ∧ f.advanceOrder = f := by
  intro f
  have hphase' : o.phase ≠ .feeding := by rw [hphase]; decide
  have hat : e.carriage.at o.horizontal ≠ true := fun h => hpos ((carriage_at_iff hc _).1 h)
  have hmoving : (e.carriage.sent (min 1599 o.horizontal)).state = .moving :=
    ((sent_cases _ _).resolve_left fun h => hpos h.1).2
  have hat' : f.carriage.at o.horizontal ≠ true := by rw [carriage_at_moving hmoving]; decide
  refine ⟨?_, ?_⟩
  · rw [advanceOrder_ret head.executing hf hk, if_neg hphase', if_neg hat, Engine.travel,
      if_pos (mayTravel_of_quiet quiet), carriageTo_sent _ hc]
  · rw [advanceOrder_ret (e := f) head.executing hf hk, if_neg hphase', if_neg hat', travel_again hc rfl]

/-- An order in its feed waits for the platen. -/
theorem feeding_waits (head : e.Headed o) (hf : e.faults.empty = true) (hphase : o.phase = .feeding)
    (hk : (∃ n, o.kind = .ret n) ∨ (∃ n, o.kind = .feed n) ∨ o.kind = .paperLoad ∨ o.kind = .paperEject)
    (hp : e.platen.state ≠ .idle) : e.advanceOrder = e := by
  rcases hk with ⟨n, hk⟩ | ⟨n, hk⟩ | hk | hk
  · rw [advanceOrder_ret head.executing hf hk, if_pos hphase, if_neg hp]
  · rw [advanceOrder_feed head.executing hf hk, if_pos hphase, if_neg hp]
  · rw [advanceOrder_paper (p := (.paperLoad, 72)) (by simp) head.executing hf hk, Engine.advancePaper, if_pos hphase,
      if_neg hp]
  · rw [advanceOrder_paper (p := (.paperEject, 528)) (by simp) head.executing hf hk, Engine.advancePaper, if_pos hphase,
      if_neg hp]

/-- The carriage and the lift sent where a PAPER order or PARK needs them. -/
def Engine.sentToView (o : Order) (e : Engine) : Engine :=
  { e with carriage := e.carriage.sent (min 1599 o.horizontal), lift := e.liftSent .view }

theorem toView_sent (quiet : e.quiet) (hc : e.carriage.state = .idle) (hl : e.lift.state ≠ .moving)
    (hp : e.parked o = false) : e.toView o = e.sentToView o := by
  have h : (!e.parked o && e.mayTravel) = true := by simp [hp, mayTravel_of_quiet quiet]
  rw [Engine.toView, if_pos h, carriageTo_sent _ hc, liftTo_sent .view (e := { e with
    carriage := e.carriage.sent (min 1599 o.horizontal) }) hl]
  rfl

theorem parked_iff (hc : e.carriage.state = .idle) :
    e.parked o = true ↔ e.carriage.position = min 1599 o.horizontal ∧ e.lift.state = .held .view := by
  simp [Engine.parked, Carriage.at, hc, Lift.at]

/-- Once sent, an order that is not where it needs to be has still some way to go, and sending it again changes nothing. -/
theorem sentToView_again (hc : e.carriage.state = .idle)
    (hp : ¬ (e.carriage.position = min 1599 o.horizontal ∧ e.lift.state = .held .view))
    (hv : ¬ (e.carriage.position = min 1599 o.horizontal ∧ e.lift.state = .unknown ∧ e.readsView)) :
    (e.sentToView o).parked o = false ∧ (e.sentToView o).toView o = e.sentToView o := by
  have hparked : (e.sentToView o).parked o = false := by
    rcases sent_cases e.carriage (min 1599 o.horizontal) with ⟨hpos, hs⟩ | ⟨-, hs⟩
    · have hm : (e.liftSent .view).state = .moving := by
        refine (liftSent_cases .view).resolve_right fun ⟨_, h⟩ => ?_
        rcases h with h | ⟨hu, hr, -⟩
        · exact hp ⟨hpos, h⟩
        · exact hv ⟨hpos, hu, hr⟩
      simp [Engine.parked, Engine.sentToView, Lift.at, hm]
    · simp [Engine.parked, Engine.sentToView, carriage_at_moving hs]
  refine ⟨hparked, ?_⟩
  have hlift : (e.sentToView o).lift.state = .moving ∨ (e.sentToView o).lift.state = .held .view :=
    (liftSent_cases .view).imp id And.left
  unfold Engine.toView
  split
  · rw [carriageTo_again hc rfl, liftTo_still _ hlift]
  · rfl

/-- A PAPER order that is not in place sends the carriage and the lift. -/
theorem paper_travels {p : OrderKind × Nat} (hmem : p ∈ [(OrderKind.paperLoad, 72), (.paperEject, 528)])
    (head : e.Headed o) (hf : e.faults.empty = true) (hk : o.kind = p.1) (hphase : o.phase = .start) (quiet : e.quiet)
    (hc : e.carriage.state = .idle) (hl : e.lift.state ≠ .moving)
    (hp : ¬ (e.carriage.position = min 1599 o.horizontal ∧ e.lift.state = .held .view))
    (hv : ¬ (e.carriage.position = min 1599 o.horizontal ∧ e.lift.state = .unknown ∧ e.readsView)) :
    e.advanceOrder = e.sentToView o ∧ (e.sentToView o).advanceOrder = e.sentToView o := by
  have hphase' : o.phase ≠ .feeding := by rw [hphase]; decide
  obtain ⟨hparked, hagain⟩ := sentToView_again hc hp hv
  have hnot : e.parked o = false := by simpa using mt (parked_iff hc).1 hp
  have step : ∀ d : Engine, d.Headed o → d.faults.empty = true → d.toView o = e.sentToView o →
      d.advanceOrder = e.sentToView o := fun d hd hf hto => by
    rw [advanceOrder_paper hmem hd.executing hf hk, Engine.advancePaper, if_neg hphase']
    simp only [hto, hparked, Bool.false_and, Bool.false_eq_true, if_false]
  exact ⟨step e head hf (toView_sent quiet hc hl hnot), step _ head hf hagain⟩

/-- A WHEEL_CHANGE that is not in place sends the carriage and the lift. -/
theorem change_travels {x : Nat} (head : e.Headed o) (hf : e.faults.empty = true) (hk : o.kind = .wheelChange x)
    (hphase : o.phase = .start) (quiet : e.quiet) (hc : e.carriage.state = .idle) (hl : e.lift.state ≠ .moving)
    (hp : ¬ (e.carriage.position = min 1599 o.horizontal ∧ e.lift.state = .held .view))
    (hv : ¬ (e.carriage.position = min 1599 o.horizontal ∧ e.lift.state = .unknown ∧ e.readsView)) :
    e.advanceOrder = e.sentToView o ∧ (e.sentToView o).advanceOrder = e.sentToView o := by
  obtain ⟨hparked, hagain⟩ := sentToView_again hc hp hv
  have hnot : e.parked o = false := by simpa using mt (parked_iff hc).1 hp
  have step : ∀ d : Engine, d.Headed o → d.faults.empty = true → d.toView o = e.sentToView o →
      d.advanceOrder = e.sentToView o := fun d hd hf hto => by
    rw [advanceOrder_change hd.executing hf hk, Engine.advanceChange, hphase]
    simp only [hto, hparked, Bool.false_eq_true, if_false]
  exact ⟨step e head hf (toView_sent quiet hc hl hnot), step _ head hf hagain⟩

/-- A parked WHEEL_CHANGE awaits the cover. -/
theorem change_awaits {x : Nat} (head : e.Headed o) (hf : e.faults.empty = true) (hk : o.kind = .wheelChange x)
    (hphase : o.phase = .start) (hp : e.parked o = true) :
    let p : Phase := if e.levels.closed then .awaitOpen else .awaitClose
    e.advanceOrder = e.setPhase o p ∧ (e.setPhase o p).advanceOrder = e.setPhase o p := by
  intro p
  have hview : e.toView o = e := by simp [Engine.toView, hp]
  refine ⟨?_, ?_⟩
  · rw [advanceOrder_change head.executing hf hk, Engine.advanceChange, hphase]
    simp only [hview, hp, if_true]
    rfl
  · rw [advanceOrder_change (head.setPhase p).executing hf hk, Engine.advanceChange]
    by_cases hcl : e.levels.closed = true <;> simp [p, hcl]

end steps

/-! ## The correction memory emptied behind the head order (R101, R111) -/

/-- An order without its record, if that has left (R111). -/
def Order.unrecorded (slots : List Nat) (o : Order) : Order :=
  match o.record with
  | some s => if s ∈ slots then { o with record := none } else o
  | none => o

/-- A LIFT without its reference to a record that has left (R120). -/
def Order.unreferred (orders : List Order) (slots : List Nat) (o : Order) : Order :=
  match o.kind with
  | .lift (.record s) =>
    if s ∈ slots then
      match lostRef orders s with
      | .emptied n =>
        if o.state = .executing then { o with kind := .lift .gone }
        else { o with kind := .lift (.emptied n), state := .queued, held := none, heldWritten := false }
      | r => { o with kind := .lift r }
    else o
  | _ => o

theorem forget_eq (orders : List Order) (slots : List Nat) (o : Order) :
    o.forget orders slots = (o.unrecorded slots).unreferred orders slots := rfl

/-- What names an order and its kind. -/
def Order.tag (o : Order) : Nat × OrderName := (o.number, o.kind.name)

theorem unrecorded_tag (slots : List Nat) (o : Order) : (o.unrecorded slots).tag = o.tag := by
  unfold Order.unrecorded
  split
  · split <;> rfl
  · rfl

theorem unreferred_tag (orders : List Order) (slots : List Nat) (o : Order) : (o.unreferred orders slots).tag = o.tag := by
  unfold Order.unreferred
  split
  · rename_i s hs
    have lifts : ∀ p : Order, p.number = o.number → p.kind.name = .lift → p.tag = o.tag := fun p hn hk =>
      Prod.ext hn (hk.trans (by rw [Order.tag, hs]; rfl))
    split
    · split
      · split
        · exact lifts _ rfl rfl
        · exact lifts _ rfl rfl
      · exact lifts _ rfl rfl
    · rfl
  · rfl

/-- An order that loses records keeps its number and its kind. -/
theorem forget_tag (orders : List Order) (slots : List Nat) (o : Order) : (o.forget orders slots).tag = o.tag :=
  (unreferred_tag _ _ _).trans (unrecorded_tag _ _)

theorem forget_number (orders : List Order) (slots : List Nat) (o : Order) : (o.forget orders slots).number = o.number :=
  congrArg Prod.fst (forget_tag orders slots o)

/-- An order without a record that is no LIFT has nothing to forget. -/
theorem forget_plain {orders : List Order} {slots : List Nat} {o : Order} (hr : o.record = none) (hk : o.kind.name ≠ .lift) :
    o.forget orders slots = o := by
  unfold Order.forget
  rw [hr]
  simp only
  split
  · rename_i s hs
    rw [hs] at hk
    exact absurd rfl hk
  · rfl

theorem removeRecords_seq (gone : Record → Bool) (e : Engine) : ∃ slots, (e.removeRecords gone).seq = { e.seq with
    queue := e.seq.queue.map (·.forget e.seq.queue slots), stage := e.seq.stage.map (·.forget e.seq.queue slots) } ∨
    (e.removeRecords gone).seq = e.seq := by
  unfold Engine.removeRecords Engine.forget
  simp only
  split
  · exact ⟨[], .inr rfl⟩
  · exact ⟨_, .inl rfl⟩

theorem removeRecords_memory (gone : Record → Bool) (e : Engine) :
    (e.removeRecords gone).memory = { e.memory with records := e.memory.records.filter fun r => !gone r } :=
  forget_same _ _ .memory (by decide)

theorem emptyMemory_memory (e : Engine) : e.emptyMemory.memory = { e.memory with records := [] } := by
  rw [Engine.emptyMemory, removeRecords_memory]
  simp

/-- The head order executes on when records leave, if it has nothing to do with them. -/
theorem Engine.Headed.removeRecords {o : Order} {e : Engine} (h : e.Headed o) (gone : Record → Bool)
    (ho : ∀ orders slots, o.forget orders slots = o) : (e.removeRecords gone).Headed o := by
  obtain ⟨slots, hs | hs⟩ := removeRecords_seq gone e
  · obtain ⟨hx, rest, hq, hne⟩ := h
    refine ⟨hx, rest.map (·.forget e.seq.queue slots), ?_, fun p hp => ?_⟩
    · rw [hs]
      simp only [hq, List.map_cons]
      rw [ho]
    · rw [hs, ← List.map_append] at hp
      obtain ⟨q, hq, rfl⟩ := List.mem_map.1 hp
      rw [forget_number]
      exact hne q hq
  · rwa [Engine.Headed, hs]

/-- A parked PAPER order empties the correction memory and starts its feed. -/
theorem paper_feeds {e : Engine} {o : Order} {p : OrderKind × Nat}
    (hmem : p ∈ [(OrderKind.paperLoad, 72), (.paperEject, 528)]) (head : e.Headed o) (hf : e.faults.empty = true)
    (hk : o.kind = p.1) (hphase : o.phase = .start) (quiet : e.quiet) (hc : e.carriage.state = .idle)
    (hp : e.parked o = true) (hrec : o.record = none) :
    let f : Engine := { e.emptyMemory.setPhase o .feeding with platen := e.platen.fed p.2 true }
    e.advanceOrder = f ∧ f.advanceOrder = f ∧ f.Headed { o with phase := .feeding } := by
  intro f
  have hphase' : o.phase ≠ .feeding := by rw [hphase]; decide
  have hview : e.toView o = e := by simp [Engine.toView, hp]
  have hheld : e.lift.state ≠ .moving := by rw [((parked_iff hc).1 hp).2]; decide
  have hname : o.kind.name ≠ .lift := by
    simp only [List.mem_cons, List.not_mem_nil, or_false] at hmem
    rw [hk]
    rcases hmem with rfl | rfl <;> decide
  have hpos : (p.2 : Int) ≠ 0 ∧ decide (0 < (p.2 : Int)) = true := by
    simp only [List.mem_cons, List.not_mem_nil, or_false] at hmem
    rcases hmem with rfl | rfl <;> decide
  have hkinds : (∃ n, o.kind = .ret n) ∨ (∃ n, o.kind = .feed n) ∨ o.kind = .paperLoad ∨ o.kind = .paperEject := by
    simp only [List.mem_cons, List.not_mem_nil, or_false] at hmem
    rcases hmem with rfl | rfl
    · exact .inr (.inr (.inl hk))
    · exact .inr (.inr (.inr hk))
  have hplaten : e.emptyMemory.platen = e.platen := emptyMemory_same e .platen (by decide)
  have hfaults : f.faults.empty = true := by
    rw [show f.faults = e.faults from emptyMemory_same e .faults (by decide)]
    exact hf
  have head' : f.Headed { o with phase := .feeding } :=
    (head.removeRecords (fun _ => true) fun _ _ => forget_plain hrec hname).setPhase .feeding
  refine ⟨?_, feeding_waits head' hfaults rfl hkinds (fun k => by cases k), head'⟩
  have hfeeds : (e.parked o && e.mayFeed) = true := by
    simp [hp, mayFeed_of_quiet quiet (idle_not_busy hc) hheld]
  rw [advanceOrder_paper hmem head.executing hf hk, Engine.advancePaper, if_neg hphase']
  simp only [hview, hfeeds, if_true]
  rw [startFeed_eq o hpos.1, hpos.2, hplaten, Int.natAbs_natCast]

/-! ## The start of a LIFT (R72, R74) -/

theorem takeCopy_record {e : Engine} {o : Order} {k : Nat} {r : Record} (hk : o.kind = .lift (.record k))
    (ok : MemoryOk e.memory) (hr : r ∈ e.memory.records) (hs : r.slot = k) : e.takeCopy o = some r.copy := by
  have hfind : e.memory.record k = some r := by
    obtain ⟨-, hnodup, -⟩ := ok
    obtain ⟨q, hq⟩ := Option.isSome_iff_exists.1 (List.find?_isSome (p := fun q : Record => decide (q.slot = k)).2
      ⟨r, hr, decide_eq_true hs⟩)
    have hqs : q.slot = k := of_decide_eq_true (List.find?_some (p := fun q : Record => decide (q.slot = k)) hq)
    have heq : q = r := List.inj_on_of_nodup_map hnodup (List.mem_of_find?_eq_some hq) hr (hqs.trans hs.symm)
    exact hq.trans (congrArg some heq)
  simp only [Engine.takeCopy, hk, hfind, Option.map_some]

/-- What a LIFT takes up: the fires made and not yet lifted, with the lift on-time (R54, R74). -/
theorem copy_eq (r : Record) : r.copy = { fires := r.fires.filter fun f => f.name ∈ r.fired ∧ f.name ∉ r.lifted
                                          onTime := min 2000 (r.onTime + 200), glyph := r.glyph } := by
  simp [Record.copy, Record.unlifted, liftOnTime]

theorem rotateTo_again {e : Engine} {n : Nat} (h : e.wheel.state ≠ .settled ∨ e.wheel.petal = some n) : e.rotateTo n = e :=
  if_neg fun k => h.elim (fun h => h k.1) fun h => k.2 h

/-- A rotation commanded of a settled wheel (R90). -/
theorem rotateTo_sent {e : Engine} {n : Nat} (h : e.wheel.state = .settled) :
    (Wheel.sent (some n) e.wheel (e.rotateTo n).wheel) ∧
    ((e.rotateTo n).wheel.state ≠ .unknown) ∧
    ((e.rotateTo n).wheel.state ≠ .settled ∨ (e.rotateTo n).wheel.petal = some n) ∧
    ((e.rotateTo n).wheel.state = .settled → e.wheel.petal = some n) := by
  by_cases hn : e.wheel.petal = some n
  · rw [rotateTo_again (.inr hn)]
    exact ⟨⟨rfl, fun _ => ⟨h, hn⟩, fun hne => absurd hn hne⟩, by rw [h]; decide, .inr hn, fun _ => hn⟩
  · rw [Engine.rotateTo, if_pos ⟨h, hn⟩]
    refine ⟨⟨rfl, fun heq => absurd heq hn, fun _ => ⟨rfl, rfl, rfl, fun a b ha hb _ _ => ?_⟩⟩,
      WheelState.noConfusion, .inl WheelState.noConfusion, fun k => WheelState.noConfusion k⟩
    cases hb
    simp only [ha, Option.getD_some, shorterForward]

/-- The wheel, the carriage and the lift sent to a fire. -/
def Engine.sentToFire (n x : Nat) (p : LiftTarget) (e : Engine) : Engine :=
  { e with wheel := (e.rotateTo n).wheel, carriage := e.carriage.sent (min 1599 x), lift := e.liftSent p }

theorem rotateTo_eq (n : Nat) (e : Engine) : e.rotateTo n = { e with wheel := (e.rotateTo n).wheel } := by
  unfold Engine.rotateTo
  split <;> rfl

section fires
variable {e : Engine} {x : Fire} {n : Nat} {p : LiftTarget}

theorem position_sent (quiet : e.quiet) (hw : e.wheel.state = .settled) (hc : e.carriage.state = .idle)
    (hl : e.lift.state ≠ .moving) (hx : x.petal = some n) : e.position x p = e.sentToFire n x.position p := by
  have hunknown : e.wheel.state ≠ .unknown := by rw [hw]; decide
  have hgo : ∀ d : Engine, d.carriage.state = .idle →
      (if d.carriage.at x.position then d else d.carriageTo x.position .order) =
        { d with carriage := d.carriage.sent (min 1599 x.position) } := fun d hd => by
    split
    · rw [Carriage.sent, if_pos ((carriage_at_iff hd _).1 ‹_›)]
    · exact carriageTo_sent _ hd
  have htravel : Engine.mayTravel { e with wheel := (e.rotateTo n).wheel } = true := mayTravel_of_quiet quiet
  simp only [Engine.position, hammerQuiet_of_quiet quiet, Bool.not_true, Bool.false_eq_true, if_false, hunknown, hx]
  rw [rotateTo_eq, if_pos htravel, hgo { e with wheel := (e.rotateTo n).wheel } hc]
  exact liftTo_sent p (e := { e with
    wheel := (e.rotateTo n).wheel, carriage := e.carriage.sent (min 1599 x.position) }) hl

/-- Once sent, a fire that is not in place has still some way to go, and positioning again changes nothing. -/
theorem sentToFire_again (hw : e.wheel.state = .settled) (hc : e.carriage.state = .idle) (hx : x.petal = some n)
    (hle : x.position ≤ 1599)
    (hout : ¬ (e.carriage.position = x.position ∧ e.wheel.petal = x.petal ∧ e.lift.state = .held p))
    (hv : p ≠ .view) :
    (e.sentToFire n x.position p).inPlace x p = false ∧
    (e.sentToFire n x.position p).position x p = e.sentToFire n x.position p := by
  obtain ⟨-, hunknown, hstill, hback⟩ := rotateTo_sent (n := n) hw
  have hlift := liftSent_cases (e := e) p
  have hmin : min 1599 x.position = x.position := by omega
  refine ⟨?_, ?_⟩
  · refine Bool.eq_false_iff.2 fun h => hout ?_
    simp only [Engine.inPlace, Bool.and_eq_true, decide_eq_true_eq, and_assoc] at h
    obtain ⟨hat, hsettled, -, hl, -⟩ := h
    refine ⟨?_, (hback hsettled).trans hx.symm, ?_⟩
    · rcases sent_cases e.carriage (min 1599 x.position) with ⟨hpos, -⟩ | ⟨-, hs⟩
      · exact hpos.trans hmin
      · rw [show (e.sentToFire n x.position p).carriage.at x.position = false from carriage_at_moving hs _] at hat
        cases hat
    · have hl : (e.liftSent p).state = .held p := of_decide_eq_true hl
      rcases hlift with h | ⟨-, h | ⟨-, -, h⟩⟩
      · rw [h] at hl
        cases hl
      · exact h
      · exact absurd h hv
  · have hcarriage : (if (e.sentToFire n x.position p).carriage.at x.position then e.sentToFire n x.position p
        else (e.sentToFire n x.position p).carriageTo x.position .order) = e.sentToFire n x.position p := by
      split
      · rfl
      · exact carriageTo_again hc rfl
    unfold Engine.position
    split
    · rfl
    · rw [if_neg (show (e.sentToFire n x.position p).wheel.state ≠ .unknown from hunknown), hx]
      simp only [rotateTo_again (e := e.sentToFire n x.position p) hstill, hcarriage,
        liftTo_still (e := e.sentToFire n x.position p) .order (hlift.imp id And.left), ite_self]

end fires

/-- A LIFT whose first fire is not in place sends the wheel, the carriage and the lift to it. -/
theorem lift_travels {e : Engine} {o : Order} {r : LiftRef} {c : LiftCopy} {x : Fire} {more : List Fire} {n : Nat}
    (head : e.Headed o) (hf : e.faults.empty = true) (hk : o.kind = .lift r) (hcopy : o.copy = some c)
    (hfires : c.fires = x :: more) (hfired : o.fired = []) (hle : x.position ≤ 1599) (hx : x.petal = some n)
    (quiet : e.quiet) (hw : e.wheel.state = .settled) (hc : e.carriage.state = .idle) (hl : e.lift.state ≠ .moving)
    (hout : ¬ (e.carriage.position = x.position ∧ e.wheel.petal = x.petal ∧ e.lift.state = .held .correct)) :
    let f := e.sentToFire n x.position .correct
    e.advanceOrder = f ∧ f.advanceOrder = f := by
  intro f
  have hnext : o.nextFire = some x := by simp [Order.nextFire, hk, hcopy, hfires, hfired]
  have hplace : o.liftPosition = .correct := by simp [Order.liftPosition, hk]
  obtain ⟨hnot, hagain⟩ := sentToFire_again hw hc hx hle hout (by decide)
  have hnot' : e.inPlace x .correct = false := Bool.eq_false_iff.2 fun h => hout <| by
    simp only [Engine.inPlace, Bool.and_eq_true, decide_eq_true_eq, and_assoc] at h
    obtain ⟨hat, -, hpetal, hl, -⟩ := h
    have hpos := (carriage_at_iff hc _).1 hat
    exact ⟨by omega, hpetal, of_decide_eq_true hl⟩
  refine ⟨?_, ?_⟩
  · rw [advanceOrder_lift head.executing hf hk, Engine.advanceFires]
    simp only [hnext, hplace, hnot', Bool.false_eq_true, if_false]
    exact position_sent quiet hw hc hl hx
  · rw [advanceOrder_lift (e := f) head.executing hf hk, Engine.advanceFires]
    simp only [hnext, hplace, f, hnot, Bool.false_eq_true, if_false]
    exact hagain

end Sys2Proof.Machine
end

section
set_option Elab.async false
namespace Sys2Proof.Machine

/-! ## ORDER_START (R70, R71) -/

/-- A RETURN at its target, or a FEED, starts its feed. -/
theorem feed_starts {e : Engine} {o : Order} {n : Int} (head : e.Headed o) (hf : e.faults.empty = true)
    (hphase : o.phase = .start) (quiet : e.quiet) (hc : e.carriage.state = .idle) (hl : e.lift.state ≠ .moving)
    (hn : n ≠ 0)
    (hk : (∃ k : Nat, o.kind = .ret k ∧ n = k ∧ e.carriage.position = min 1599 o.horizontal) ∨ o.kind = .feed n) :
    let f : Engine := { e.setPhase o .feeding with platen := e.platen.fed n.natAbs (decide (0 < n)) }
    e.advanceOrder = f ∧ f.advanceOrder = f ∧ f.Headed { o with phase := .feeding } := by
  intro f
  have hphase' : o.phase ≠ .feeding := by rw [hphase]; decide
  have may : e.mayFeed = true := mayFeed_of_quiet quiet (idle_not_busy hc) hl
  have head' : f.Headed { o with phase := .feeding } := head.setPhase .feeding
  have hfeeding : f.platen.state ≠ .idle := fun k => by cases k
  rcases hk with ⟨k, hk, rfl, hpos⟩ | hk
  · refine ⟨?_, feeding_waits head' hf rfl (.inl ⟨k, hk⟩) hfeeding, head'⟩
    rw [advanceOrder_ret head.executing hf hk, if_neg hphase', if_pos ((carriage_at_iff hc _).2 hpos), if_pos may,
      startFeed_eq o hn]
  · refine ⟨?_, feeding_waits head' hf rfl (.inr (.inl ⟨n, hk⟩)) hfeeding, head'⟩
    rw [advanceOrder_feed head.executing hf hk, if_neg hphase', if_pos may, startFeed_eq o hn]

theorem takeCopy_plain {e : Engine} {o : Order} (hk : o.kind.name ≠ .lift) : e.takeCopy o = none := by
  unfold Engine.takeCopy
  split
  · rename_i hs
    rw [hs] at hk
    exact absurd rfl hk
  · rfl

theorem sentToView_same (o : Order) (e : Engine) : Same [.carriage, .lift] e (e.sentToView o) :=
  (withCarriage_same (e.carriage.sent (min 1599 o.horizontal)) e).next (withLift_same (e.liftSent .view) _)

theorem sentToFire_same (n x : Nat) (p : LiftTarget) (e : Engine) :
    Same [.wheel, .carriage, .lift] e (e.sentToFire n x p) :=
  (withWheel_same (e.rotateTo n).wheel e).next
    ((withCarriage_same (e.carriage.sent (min 1599 x)) _).next (withLift_same (e.liftSent p) _) (zs := [.carriage, .lift]))

theorem fed_same (o : Order) (n : Nat) (forward : Bool) (e : Engine) :
    Same [.queue, .platen] e { e.setPhase o .feeding with platen := e.platen.fed n forward } :=
  (setPhase_same o .feeding e).next (withPlaten_same _ _)

theorem emptied_same (o : Order) (n : Nat) (forward : Bool) (e : Engine) :
    Same [.queue, .line, .memory, .platen] e
      { e.emptyMemory.setPhase o .feeding with platen := e.platen.fed n forward } :=
  (emptyMemory_same e).next ((setPhase_same o .feeding _).next (withPlaten_same _ _) (zs := [.queue, .platen]))

/-- Emptying the correction memory leaves the view timer and the waiting lift move alone. -/
theorem emptyMemory_view (e : Engine) :
    e.emptyMemory.seq.viewTimer = e.seq.viewTimer ∧ e.emptyMemory.seq.liftToView = e.seq.liftToView := by
  obtain ⟨slots, h | h⟩ := removeRecords_seq (fun _ => true) e <;> simp only [Engine.emptyMemory, h, and_self]

/-- Where a wheel was sent does not turn on the code that its next homing may find. -/
theorem Wheel.sent.congr {petal : Option Nat} {v w u : Wheel} (h : v.sent petal w)
    (hu : { u with found := none } = { w with found := none }) : v.sent petal u := by
  have state := congrArg Wheel.state hu
  have place := congrArg Wheel.petal hu
  have mounted := congrArg Wheel.mounted hu
  have target := congrArg Wheel.target hu
  have forward := congrArg Wheel.forward hu
  have timer := congrArg Wheel.timer hu
  simp only at state place mounted target forward timer
  simpa only [Wheel.sent, state, place, mounted, target, forward, timer] using h

section starts
variable {s : State} {o : Order} {rest : List Order}

/-- ORDER_START of an order that sends the carriage and the lift to its target and VIEW. -/
theorem orderStart_parks (aside : s.aside) (runs : s.sequences) (hview : s.seq.liftToView = false)
    (hq : s.seq.queue = o :: rest) (ho : o.state = .prepared) (hk : o.kind.name ≠ .lift)
    (hstep : (s.startedWith none o rest).advanceOrder = (s.startedWith none o rest).sentToView (o.started none) ∧
      ((s.startedWith none o rest).sentToView (o.started none)).advanceOrder =
        (s.startedWith none o rest).sentToView (o.started none)) :
    ∃ t, exec .orderStart s = .next t ∧ t.seq.viewTimer = none ∧
      (t.carriage = s.carriage.sent (min 1599 o.horizontal) ∧ t.lift = s.liftSent .view) ∧
      Keeps ([.carriage] ++ settleParts) s t ∧ t.seq.queue.head? = some (o.started none) := by
  obtain ⟨hfirst, again⟩ := hstep
  obtain ⟨-, -, -, -, -, hnumbers, -⟩ := id runs
  have hcopy : s.takeCopy o = none := takeCopy_plain hk
  obtain ⟨t, hex, htimer, hl, hfar, keeps, hhead⟩ := orderStart_steps (touched := [.carriage]) (p := o.started none)
    aside runs hq ho (hcopy ▸ hfirst) again (startedWith_headed (copy := none) hnumbers hq) rfl hview
    (hcopy ▸ (sentToView_same _ _).mono (by decide))
  have hcarriage := hfar .carriage (by decide)
  exact ⟨t, hex, htimer, ⟨hcarriage, hl⟩, keeps, hhead⟩

/-- ORDER_START of an order that starts a feed. -/
theorem orderStart_feeds {n : Int} (aside : s.aside) (runs : s.sequences) (quiet : s.quiet)
    (hcar : s.carriage.state = .idle) (hlift : s.lift.state ≠ .moving) (hview : s.seq.liftToView = false)
    (hq : s.seq.queue = o :: rest) (ho : o.state = .prepared) (hn : n ≠ 0)
    (hk : (∃ k : Nat, o.kind = .ret k ∧ n = k ∧ s.carriage.position = min 1599 o.horizontal) ∨ o.kind = .feed n) :
    ∃ t, exec .orderStart s = .next t ∧ t.seq.viewTimer = none ∧
      t.platen = s.platen.fed n.natAbs (decide (0 < n)) ∧ Keeps ([.platen] ++ settleParts) s t ∧
      t.seq.queue.head? = some { o.started none with phase := .feeding } := by
  obtain ⟨-, hx, hp, -, -, hnumbers, -⟩ := id runs
  have hname : o.kind.name ≠ .lift := by
    rcases hk with ⟨k, hk, -⟩ | hk <;> rw [hk] <;> exact OrderName.noConfusion
  have hcopy : s.takeCopy o = none := takeCopy_plain hname
  obtain ⟨hfirst, again, head'⟩ := feed_starts (startedWith_headed (copy := none) hnumbers hq)
    ((faults_empty_iff _).2 ⟨hx, hp⟩) rfl quiet hcar hlift hn hk
  obtain ⟨t, hex, htimer, -, hfar, keeps, hhead⟩ := orderStart_steps (touched := [.platen]) aside runs hq ho
    (hcopy ▸ hfirst) again head' rfl hview (hcopy ▸ (fed_same _ _ _ _).mono (by decide))
  have hplaten := hfar .platen (by decide)
  exact ⟨t, hex, htimer, hplaten, keeps, hhead⟩

end starts

/-- Settles O57: each kind's first step, taken again, changes nothing more, so that settling alone follows it. -/
theorem orderStarts : Obligations.OrderStarts := by
  unfold Obligations.OrderStarts
  intro s aside runs quiet hcar hlift hview o rest hq ho
  obtain ⟨-, hx, hp, -, -, hnumbers, -⟩ := id runs
  have hf : s.faults.empty = true := (faults_empty_iff _).2 ⟨hx, hp⟩
  have head : ∀ c, (s.startedWith c o rest).Headed (o.started c) := fun c => startedWith_headed hnumbers hq
  refine ⟨fun n hk => ⟨fun away => ?_, fun there hn => ?_⟩, fun n hk hn => ?_,
    fun p hmem hk => ⟨fun away unread => ?_, fun hparked hrec => ?_⟩, fun x hk => ⟨fun away unread => ?_, fun hparked => ?_⟩,
    fun k hk ok hfired r hr hslot x more hfires hle hw hpetal hout => ?_⟩
  · have hcopy : s.takeCopy o = none := takeCopy_plain (by rw [hk]; exact OrderName.noConfusion)
    obtain ⟨hstep, again⟩ := ret_travels (head none) hf hk rfl quiet hcar away
    obtain ⟨t, hex, htimer, -, hfar, keeps, hhead⟩ := orderStart_steps (touched := [.carriage]) aside runs hq ho
      (hcopy ▸ hstep) again (head none) rfl hview (hcopy ▸ (withCarriage_same _ _).mono (by decide))
    have hcarriage := hfar .carriage (by decide)
    exact ⟨t, hex, htimer, hcarriage, keeps, hhead⟩
  · have hpos : decide ((0 : Int) < n) = true := by simpa using hn
    have h := orderStart_feeds aside runs quiet hcar hlift hview hq ho (n := n) (by omega) (.inl ⟨n, hk, rfl, there⟩)
    rwa [hpos] at h
  · exact orderStart_feeds aside runs quiet hcar hlift hview hq ho hn (.inr hk)
  · have hname : o.kind.name ≠ .lift := by
      simp only [List.mem_cons, List.not_mem_nil, or_false] at hmem
      rcases hmem with rfl | rfl <;> rw [hk] <;> exact OrderName.noConfusion
    exact orderStart_parks aside runs hview hq ho hname (paper_travels hmem (head none) hf hk rfl quiet hcar hlift away unread)
  · have hname : o.kind.name ≠ .lift := by
      simp only [List.mem_cons, List.not_mem_nil, or_false] at hmem
      rcases hmem with rfl | rfl <;> rw [hk] <;> exact OrderName.noConfusion
    have hcopy : s.takeCopy o = none := takeCopy_plain hname
    obtain ⟨hstep, again, head'⟩ := paper_feeds hmem (head none) hf hk rfl quiet hcar ((parked_iff hcar).2 hparked) hrec
    obtain ⟨htimer, hwaits⟩ := emptyMemory_view (s.startedWith none o rest)
    obtain ⟨t, hex, htimer, -, hfar, keeps, hhead⟩ := orderStart_steps (touched := [.platen, .memory, .line]) aside runs
      hq ho (hcopy ▸ hstep) again head' htimer (hwaits.trans hview) (hcopy ▸ (emptied_same _ _ _ _).mono (by decide))
    have hplaten := hfar .platen (by decide)
    have hmemory : t.memory = _ := hfar .memory (by decide)
    exact ⟨t, hex, htimer, ⟨hplaten, hmemory.trans (emptyMemory_memory _)⟩, keeps, hhead⟩
  · exact orderStart_parks aside runs hview hq ho (by rw [hk]; exact OrderName.noConfusion)
      (change_travels (head none) hf hk rfl quiet hcar hlift away unread)
  · have hcopy : s.takeCopy o = none := takeCopy_plain (by rw [hk]; exact OrderName.noConfusion)
    obtain ⟨hstep, again⟩ := change_awaits (head none) hf hk rfl ((parked_iff hcar).2 hparked)
    obtain ⟨t, hex, htimer, hl, hfar, keeps, hhead⟩ := orderStart_steps (touched := []) aside runs hq ho
      (hcopy ▸ hstep) again ((head none).setPhase _) rfl hview (hcopy ▸ (setPhase_same _ _ _).mono (by decide))
    have hcarriage := hfar .carriage (by decide)
    exact ⟨t, hex, htimer, ⟨hcarriage, hl⟩, keeps, hhead⟩
  · obtain ⟨n, hn⟩ := Option.isSome_iff_exists.1 hpetal
    have hcopy : s.takeCopy o = some { fires := x :: more, onTime := min 2000 (r.onTime + 200), glyph := r.glyph } := by
      rw [takeCopy_record hk ok hr hslot, copy_eq, hfires]
    obtain ⟨hstep, again⟩ := lift_travels (head (some _)) hf hk rfl (c := { fires := x :: more, onTime := min 2000 (r.onTime + 200), glyph := r.glyph }) rfl hfired hle hn quiet hw hcar hlift hout
    obtain ⟨t, hex, htimer, hl, hfar, keeps, hhead⟩ := orderStart_steps (touched := [.carriage, .wheel]) aside runs hq ho
      (hcopy ▸ hstep) again (head _) rfl hview (hcopy ▸ (sentToFire_same _ _ _ _).mono (by decide))
    have hcarriage := hfar .carriage (by decide)
    have hwheel := hfar .wheel (by decide)
    have hsent := (rotateTo_sent (e := s.startedWith
      (some { fires := x :: more, onTime := min 2000 (r.onTime + 200), glyph := r.glyph }) o rest) (n := n) hw).1
    have hmin : min 1599 x.position = x.position := by omega
    refine ⟨t, hex, htimer, ⟨?_, hcarriage.trans ?_, hl⟩, keeps, hhead⟩
    · rw [hn]
      exact hsent.congr hwheel
    · exact congrArg s.carriage.sent hmin

end Sys2Proof.Machine
end

section
set_option Elab.async false
namespace Sys2Proof.Machine

/-! ## The completion of an order (R75, R78, R83) -/

/-- The sequencer once the head order is done, before records and groups follow. -/
def Sequencer.done (o : Order) (q : Sequencer) : Sequencer :=
  let d := Sequencer.advanceInk o.kind { q with queue := q.queue.drop 1, printPoint := o.endPosition }
  if d.pausePending then { d with state := .paused, pausePending := false, viewTimer := viewTime } else d

/-- A group without one order of its own. -/
def Group.less (n : Nat) (g : Group) : Group := if g.id = n then { g with remaining := g.remaining - 1 } else g

/-- The part once the head order is done and its cells are on paper, before records and groups follow. -/
def Engine.headDone (o : Order) (e : Engine) : Engine :=
  { e with seq := e.seq.done o, comp := { e.comp with line := e.comp.line.map (·.settled o) } }

/-- The part once the records of older line generations have left too (R110). -/
def Engine.lineDone (o : Order) (e : Engine) : Engine :=
  if o.kind.advancesLine then (e.headDone o).advanceGeneration else e.headDone o

theorem completeOrder_eq (o : Order) (e : Engine) :
    e.completeOrder o = ((e.lineDone o).loseFrom o.group id).closeGroups := rfl

theorem map_forget_tag (orders : List Order) (slots : List Nat) (l : List Order) :
    (l.map (·.forget orders slots)).map (·.tag) = l.map (·.tag) := by
  rw [List.map_map]
  exact List.map_congr_left fun o _ => forget_tag orders slots o

/-- Records that leave take no order with them. -/
theorem lineDone_seq (o : Order) (e : Engine) : ∃ q st, (e.lineDone o).seq = { e.seq.done o with queue := q, stage := st } ∧
    q.map (·.tag) = (e.seq.queue.drop 1).map (·.tag) ∧ st.map (·.tag) = e.seq.stage.map (·.tag) := by
  have hdone : (e.seq.done o).queue = e.seq.queue.drop 1 ∧ (e.seq.done o).stage = e.seq.stage := by
    unfold Sequencer.done Sequencer.advanceInk
    cases o.kind <;> simp only <;> split <;> exact ⟨rfl, rfl⟩
  obtain ⟨hq, hs⟩ := hdone
  unfold Engine.lineDone
  split
  · obtain ⟨slots, h | h⟩ := removeRecords_seq (fun r => decide (3 ≤ (e.memory.generation + 1 - r.generation).toNat))
      { e.headDone o with memory := { e.memory with generation := e.memory.generation + 1 } }
    · refine ⟨(e.seq.done o).queue.map (Order.forget (e.seq.done o).queue slots),
        (e.seq.done o).stage.map (Order.forget (e.seq.done o).queue slots), h, ?_, ?_⟩
      · rw [map_forget_tag, hq]
      · rw [map_forget_tag, hs]
    · exact ⟨(e.seq.done o).queue, (e.seq.done o).stage, h, by rw [hq], by rw [hs]⟩
  · exact ⟨(e.seq.done o).queue, (e.seq.done o).stage, rfl, by rw [hq], by rw [hs]⟩

/-- The sequencer behind the completion. -/
theorem completeOrder_seq (o : Order) (e : Engine) : ∃ q st, (e.completeOrder o).seq = { e.seq.done o with
      queue := q, stage := st
      groups := ((e.seq.groups.map (·.less o.group)).filter fun g => g.remaining ≠ 0) } ∧
    q.map (·.tag) = (e.seq.queue.drop 1).map (·.tag) ∧ st.map (·.tag) = e.seq.stage.map (·.tag) := by
  obtain ⟨q, st, h, hq, hst⟩ := lineDone_seq o e
  refine ⟨q, st, ?_, hq, hst⟩
  have hgroups : (e.seq.done o).groups = e.seq.groups := by
    unfold Sequencer.done Sequencer.advanceInk
    cases o.kind <;> simp only <;> split <;> rfl
  rw [completeOrder_eq, closeGroups_seq]
  simp only [Engine.loseFrom, h, hgroups]
  rfl

theorem done_state (o : Order) (q : Sequencer) : (q.done o).printPoint = o.endPosition ∧
    (q.pausePending = true → (q.done o).state = .paused ∧ (q.done o).viewTimer = viewTime ∧ (q.done o).pausePending = false) ∧
    (q.pausePending = false → (q.done o).state = q.state ∧ (q.done o).pausePending = false) ∧
    (q.done o).stageState = q.stageState := by
  unfold Sequencer.done Sequencer.advanceInk
  cases o.kind <;> simp only <;> split <;> simp_all

/-- Which records the completion leaves (R110). -/
theorem completeOrder_memory (o : Order) (e : Engine) :
    (e.completeOrder o).memory = if o.kind.advancesLine then e.memory.nextLine else e.memory := by
  have h : ((e.lineDone o).loseFrom o.group id).closeGroups.memory = (e.lineDone o).memory :=
    Same.next (zs := [.queue, .outgoing, .message]) (loseFrom_same o.group id (e.lineDone o)) (closeGroups_same _)
      (by decide) (by decide) .memory (by decide)
  rw [completeOrder_eq, h]
  unfold Engine.lineDone
  split
  · refine (removeRecords_memory _ _).trans ?_
    simp only [Memory.nextLine, Engine.headDone, ← not_le, decide_not]
    rfl
  · rfl

/-! ## Settling behind a completion -/

/-- A claim about the numbers and the kinds of all orders. -/
def Engine.Tagged (C : Nat × OrderName → Prop) (e : Engine) : Prop := ∀ p ∈ e.seq.queue ++ e.seq.stage, C p.tag

theorem Engine.Tagged.edit {C : Nat × OrderName → Prop} {e : Engine} (h : e.Tagged C) {n : Nat} {f : Order → Order}
    (hf : ∀ p, (f p).tag = p.tag) : (e.editOrder n f).Tagged C := fun q hq => by
  rcases List.mem_append.1 hq with hq | hq
  · obtain ⟨p, hp, rfl⟩ := List.mem_map.1 hq
    split
    · rw [hf]
      exact h p (List.mem_append_left _ hp)
    · exact h p (List.mem_append_left _ hp)
  · exact h q (List.mem_append_right _ hq)

theorem prepared_tag (r : Check) (o : Order) : (o.prepared r).tag = o.tag := by
  unfold Order.prepared
  split
  · rfl
  · split <;> rfl
  · rfl
  · rfl

/-- Settling brings no new order, so that what holds of every number and kind stays. -/
theorem settleKeeps_tagged (C : Nat × OrderName → Prop) : SettleKeeps (Engine.Tagged C) where
  drain := fun {e} he => by rwa [Engine.Tagged, drain_append]
  rouse := fun {e} he => by rwa [Engine.Tagged, rouse_queue, rouse_stage]
  stale := fun {e p} he _ _ q hq => by
    rw [dropStale_seq] at hq
    rcases List.mem_append.1 hq with h | h
    · exact he q (List.mem_append_left _ (List.mem_filter.1 h).1)
    · exact he q (List.mem_append_right _ h)
  check := fun he _ => he.edit (prepared_tag _)
  gate := fun {e} he => by rwa [Engine.Tagged, gate_queue, gate_stage]
  held := fun {e} he _ => by
    rcases writeHeld_cases e with h | ⟨p, k, -, -, -, h⟩ <;> rw [h]
    · exact he
    · obtain ⟨t, b, hs⟩ := writeFault_seq .p ((e.nameOrder p).faultOf k (some p) false none) (e.nameOrder p)
      refine Engine.Tagged.edit ?_ fun _ => rfl
      rwa [Engine.Tagged, hs]
  rest := fun {e} he => by rwa [Engine.Tagged, rest_queue, rest_stage]
  lift := fun {e} he => by
    obtain ⟨b, hs⟩ := viewLift_seq e
    rwa [Engine.Tagged, hs]
  power := fun _ he => he
  found := fun he => he

/-- Only a LIFT can be stale (R67, step 1). -/
theorem check_stale {e : Engine} {o : Order} (h : e.check o = .stale) : o.kind.name = .lift := by
  cases hk : o.kind with
  | lift r => rfl
  | wheelChange x => simp only [Engine.check, hk, reduceCtorEq] at h
  | strike f =>
    simp only [Engine.check, hk] at h
    split_ifs at h
  | move => simp only [Engine.check, hk] at h; split_ifs at h
  | ret n => simp only [Engine.check, hk] at h; split_ifs at h
  | feed n => simp only [Engine.check, hk] at h; split_ifs at h
  | paperLoad => simp only [Engine.check, hk] at h; split_ifs at h
  | paperEject => simp only [Engine.check, hk] at h; split_ifs at h

theorem pOrder_mem {e : Engine} {o : Order} (h : e.pOrder = some o) : o ∈ e.seq.queue := by
  unfold Engine.pOrder at h
  split at h
  · rename_i p rest hq
    rw [hq]
    split at h
    · exact List.mem_cons_of_mem _ (List.mem_of_head? h)
    · cases h
      exact List.mem_cons_self
  · cases h

/-- No LIFT stands in the queue or in the release stage. -/
def Engine.NoLift (e : Engine) : Prop := e.Tagged fun t => t.2 ≠ .lift

theorem Engine.NoLift.not_stale {e : Engine} {o : Order} (h : e.NoLift) (hp : e.pOrder = some o) :
    e.check o ≠ .stale := fun hs => h o (List.mem_append_left _ (pOrder_mem hp)) (check_stale hs)

/-- Without a LIFT no group changes. -/
theorem settleKeeps_groups (gs : List Group) : SettleKeeps fun e => e.NoLift ∧ e.seq.groups = gs :=
  have k := settleKeeps_tagged fun t => t.2 ≠ .lift
  { drain := fun {e} ⟨hn, hg⟩ => ⟨k.drain hn, (drain_groups e).trans hg⟩
    rouse := fun {e} ⟨hn, hg⟩ => ⟨k.rouse hn, (rouse_groups e).trans hg⟩
    stale := fun ⟨hn, _⟩ hp hs => absurd hs (Engine.NoLift.not_stale hn hp)
    check := fun ⟨hn, hg⟩ hp => ⟨k.check hn hp, hg⟩
    gate := fun {e} ⟨hn, hg⟩ => ⟨k.gate hn, (gate_groups e).trans hg⟩
    held := fun {e} ⟨hn, hg⟩ hx => ⟨k.held hn hx, (writeHeld_orders e).2.2.1.trans hg⟩
    rest := fun {e} ⟨hn, hg⟩ => ⟨k.rest hn, (rest_groups e).trans hg⟩
    lift := fun {e} ⟨hn, hg⟩ => ⟨k.lift hn, by
      obtain ⟨b, hs⟩ := viewLift_seq e
      rwa [hs]⟩
    power := fun _ he => he
    found := fun he => he }

/-- Without a LIFT preparing raises no notice. -/
theorem prepareKeeps_noLift (gs : List Group) (l : Link) :
    PrepareKeeps fun e => e.NoLift ∧ e.seq.groups = gs ∧ e.link = l :=
  have k := settleKeeps_groups gs
  { drain := fun {e} ⟨hn, hg, hl⟩ => ⟨(k.drain ⟨hn, hg⟩).1, (k.drain ⟨hn, hg⟩).2, by
      unfold Engine.drain; split <;> exact hl⟩
    rouse := fun {e} ⟨hn, hg, hl⟩ => ⟨(k.rouse ⟨hn, hg⟩).1, (k.rouse ⟨hn, hg⟩).2, by
      unfold Engine.rouse; split <;> exact hl⟩
    stale := fun ⟨hn, _⟩ hp hs => absurd hs (Engine.NoLift.not_stale hn hp)
    check := fun ⟨hn, hg, hl⟩ hp => ⟨(k.check ⟨hn, hg⟩ hp).1, hg, hl⟩ }

/-- With no order anywhere nothing is prepared and no failure is written. -/
theorem emptied_untouched {e : Engine} (hq : e.seq.queue = []) (hst : e.seq.stageState = .empty) :
    e.gate.prepare.heldNow = e := by
  have hgate : e.gate = e := gate_not_held (by rw [hst]; decide)
  have hp : e.pOrder = none := by simp only [Engine.pOrder, hq]
  have hprep : e.prepare = e := by
    have hrouse : e.rouse = e := if_neg fun k => k.2 hq
    have hdrain : e.drain = e := drain_not_filling (by rw [hst]; decide)
    simp only [Engine.prepare, prepareLoop, hdrain, hrouse, hp]
  have hheld : e.writeHeld = e := by simp only [Engine.writeHeld, hp]
  rw [hgate, hprep, Engine.heldNow, hheld, ite_self]

/-- With no order anywhere a sequencer that RUNS comes to rest, and the view timer starts (R77, R78). -/
theorem settle_emptied {e : Engine} (hq : e.seq.queue = []) (hst : e.seq.stageState = .empty) :
    e.settle.seq.queue = [] ∧
    (e.seq.state = .running → e.settle.seq.viewTimer = viewTime ∧
      e.settle.seq.state = if e.seq.pausePending then .paused else .idle) ∧
    (e.seq.state ≠ .running → e.settle.seq.viewTimer = e.seq.viewTimer ∧ e.settle.seq.state = e.seq.state) := by
  have hheld := emptied_untouched hq hst
  have hseq : ∃ b, e.settle.seq = { e.rest.seq with liftToView := b } := by
    obtain ⟨b, hb⟩ := viewLift_seq e.rest
    obtain ⟨q, hq, -⟩ := dropEntry_eq e.rest.viewLift
    obtain ⟨r, hr, -⟩ := standbyUpdate_eq e.rest.viewLift.dropEntry
    refine ⟨b, ?_⟩
    rw [← hb]
    simp only [Engine.settle, hheld]
    rw [hr, hq]
  obtain ⟨b, hseq⟩ := hseq
  rw [hseq]
  refine ⟨(rest_queue e).trans hq, fun hrun => ?_, fun hrun => ?_⟩
  · simp only [Engine.rest, hrun, hq, and_self, if_true]
  · have : ¬ (e.seq.state = .running ∧ e.seq.queue = []) := fun k => hrun k.1
    simp only [Engine.rest, if_neg this, and_self]

/-! ## The group of a completed order (R83, R84) -/

theorem takeNotice_room {n : Notice} {q : List Notice} (h : q.length < 15) (hq : ∀ m ∈ q, m.isOverflow = false) :
    takeNotice n q = q ++ [n] := by
  unfold takeNotice
  split
  · rename_i k hk
    exact absurd (hq _ (List.mem_of_getLast? hk)) Bool.noConfusion
  · exact if_pos h

theorem map_less_of_ne {n : Nat} {l : List Group} (h : ∀ g ∈ l, g.id ≠ n) : l.map (·.less n) = l :=
  (List.map_congr_left fun g hg => if_neg (h g hg)).trans (List.map_id l)

theorem less_eq {n : Nat} {g : Group} (h : g.id = n) : g.less n = { g with remaining := g.remaining - 1 } := if_pos h

/-- The groups around the one that a completion counts. -/
theorem groups_less {gs : List Group} {g : Group} (hg : g ∈ gs) (nodup : (gs.map (·.id)).Nodup) :
    ∃ a b, gs = a ++ g :: b ∧ (∀ h ∈ a ++ b, h.id ≠ g.id) ∧
      gs.map (·.less g.id) = a ++ { g with remaining := g.remaining - 1 } :: b := by
  obtain ⟨a, b, rfl⟩ := List.append_of_mem hg
  have hne : ∀ h ∈ a ++ b, h.id ≠ g.id := fun h hh heq => by
    rw [List.map_append, List.map_cons, List.nodup_middle, List.nodup_cons, ← List.map_append] at nodup
    exact nodup.1 (heq ▸ List.mem_map_of_mem hh)
  refine ⟨a, b, rfl, hne, ?_⟩
  rw [List.map_append, List.map_cons, map_less_of_ne fun h hh => hne h (List.mem_append_left _ hh), less_eq rfl,
    map_less_of_ne fun h hh => hne h (List.mem_append_right _ hh)]

/-- The DONE notice of the one group that closes. -/
theorem closeGroups_link {e : Engine} {g : Group} (h : (e.seq.groups.filter fun g => g.remaining = 0) = [g])
    (on : e.power.state ≠ .deepOff) : e.closeGroups.link = e.link.noticed g.notice := by
  simp only [Engine.closeGroups, h, List.map_cons, List.map_nil]
  exact offer_link on

theorem done_ids (o : Order) (q : Sequencer) : (q.done o).lastGroup = q.lastGroup ∧ (q.done o).nextOrder = q.nextOrder ∧
    (q.done o).recovery = q.recovery ∧ (q.done o).groups = q.groups := by
  unfold Sequencer.done Sequencer.advanceInk
  cases o.kind <;> simp only <;> split <;> exact ⟨rfl, rfl, rfl, rfl⟩

theorem lineDone_same (o : Order) (e : Engine) : Same [.queue, .ink, .line, .memory] e (e.lineDone o) := by
  obtain ⟨hgroup, horder, hrec, -⟩ := done_ids o e.seq
  have hhead : Same [.queue, .ink, .line, .memory] e (e.headDone o) :=
    (withSeqLine_same (e.seq.done o) (e.comp.line.map (·.settled o)) e ⟨hgroup, horder, hrec⟩).mono (by decide)
  exact .ite (hhead.trans ((advanceGeneration_same _).mono (by decide))) hhead

/-- The DONE notice of the group whose last order completes. -/
theorem completeOrder_link {e : Engine} {o : Order} {g : Group} (hg : g ∈ e.seq.groups)
    (nodup : (e.seq.groups.map (·.id)).Nodup) (live : ∀ h ∈ e.seq.groups, 1 ≤ h.remaining) (hid : g.id = o.group)
    (hlast : g.remaining = 1) (on : e.power.state ≠ .deepOff) (htx : e.link.tx ≠ none) :
    (e.completeOrder o).link.tx ≠ none ∧ (e.completeOrder o).link.notices = takeNotice g.notice e.link.notices := by
  obtain ⟨q, st, hseq, -⟩ := lineDone_seq o e
  have hdone : Same [.queue, .ink, .line, .memory] e ((e.lineDone o).loseFrom o.group id) :=
    (lineDone_same o e).trans ((loseFrom_same _ _ _).mono (by decide))
  obtain ⟨-, tx, notices⟩ := hdone .outgoing (by decide)
  obtain ⟨a, b, hgs, -, hless⟩ := groups_less hg nodup
  have hgroups : ((e.lineDone o).loseFrom o.group id).seq.groups = a ++ { g with remaining := 0 } :: b := by
    simp only [Engine.loseFrom, hseq, (done_ids o e.seq).2.2.2]
    rw [← hid]
    exact hless.trans (by rw [hlast])
  have hnone : ∀ l : List Group, l ⊆ e.seq.groups → (l.filter fun g => g.remaining = 0) = [] := fun l hl =>
    List.filter_eq_nil_iff.2 fun h hh => by have := live h (hl hh); simp; omega
  have hfilter : (((e.lineDone o).loseFrom o.group id).seq.groups.filter fun g => g.remaining = 0) =
      [{ g with remaining := 0 }] := by
    rw [hgroups, List.filter_append, List.filter_cons_of_pos (by simp), hnone a (by simp [hgs]),
      hnone b (by simp [hgs])]
    rfl
  rw [completeOrder_eq, closeGroups_link hfilter (hdone.power_state.trans_ne on),
    Link.noticed_busy _ (tx.trans_ne htx), notices]
  exact ⟨tx.trans_ne htx, rfl⟩

theorem completeOrder_groups {e : Engine} {o : Order} {g : Group} (hg : g ∈ e.seq.groups)
    (nodup : (e.seq.groups.map (·.id)).Nodup) (hid : g.id = o.group) :
    (1 < g.remaining → { g with remaining := g.remaining - 1 } ∈ (e.completeOrder o).seq.groups) ∧
    (g.remaining = 1 → ∀ h ∈ (e.completeOrder o).seq.groups, h.id ≠ g.id) := by
  obtain ⟨q, st, hseq, -⟩ := completeOrder_seq o e
  obtain ⟨a, b, -, hne, hless⟩ := groups_less hg nodup
  rw [hseq, ← hid]
  simp only [hless, List.mem_filter]
  refine ⟨fun h => ⟨by simp, by simp; omega⟩, fun hlast h ⟨hmem, hlive⟩ => ?_⟩
  rcases List.mem_append.1 hmem with hh | hh
  · exact hne h (List.mem_append_left _ hh)
  · rcases List.mem_cons.1 hh with rfl | hh
    · simp [hlast] at hlive
    · exact hne h (List.mem_append_right _ hh)

/-- What stands behind the head order is as it was in another state, but for orders that are prepared. -/
structure Engine.Behind (s e : Engine) : Prop where
  running : e.seq.state = .running
  pause : e.seq.pausePending = s.seq.pausePending
  alone : s.seq.queue.tail = [] → s.seq.stage = [] → e.seq.queue.tail = [] ∧ e.seq.stage = [] ∧ e.seq.stageState = .empty
  noLift : (∀ p ∈ s.seq.queue.tail ++ s.seq.stage, p.kind.name ≠ .lift) →
    (∀ p ∈ e.seq.queue.tail ++ e.seq.stage, p.kind.name ≠ .lift) ∧ e.seq.groups = s.seq.groups ∧
    (s.link.tx ≠ none → s.link.notices = [] → e.link.tx ≠ none ∧ e.link.notices.length < 15 ∧
      ∀ m ∈ e.link.notices, m.isOverflow = false)

/-- The completion of the head order, settled. -/
theorem completes {s t : State} {e f : Engine} {o : Order} (hd : e.Headed o) (behind : Engine.Behind s.toEngine e)
    (ok : GroupsOk s.seq) (on : e.power.state ≠ .deepOff)
    (hseq : ∃ b, f.seq = { (e.completeOrder o).seq with liftToView := b }) (hlink : f.link.tx = (e.completeOrder o).link.tx ∧ f.link.notices = (e.completeOrder o).link.notices)
    (ht : t.toEngine = f.settle.refresh) : Completes o o.endPosition s t := by
  obtain ⟨b, hb⟩ := hseq
  obtain ⟨q, st, hfin, hq, hst⟩ := completeOrder_seq o e
  obtain ⟨-, rest, hqueue, hne⟩ := hd
  have hqueue' : e.seq.queue.drop 1 = rest := by rw [hqueue]; rfl
  have htail : e.seq.queue.tail = rest := by rw [hqueue]; rfl
  obtain ⟨hpoint, hpaused, hrunning, hstage⟩ := done_state o e.seq
  have hfseq : f.seq = { e.seq.done o with
      queue := q, stage := st, liftToView := b
      groups := (e.seq.groups.map (·.less o.group)).filter fun g => g.remaining ≠ 0 } := by rw [hb, hfin]
  have tagged : ∀ C : Nat × OrderName → Prop, (∀ p ∈ rest ++ e.seq.stage, C p.tag) → f.Tagged C := fun C hC p hp => by
    rw [hfseq] at hp
    have hmem : p.tag ∈ (q ++ st).map (·.tag) := List.mem_map_of_mem hp
    rw [List.map_append, hq, hst, hqueue', ← List.map_append] at hmem
    obtain ⟨r, hr, heq⟩ := List.mem_map.1 hmem
    exact heq ▸ hC r hr
  have hseqt : t.seq = f.settle.seq := by rw [ht, Engine.refresh_seq]
  have hlinkt : t.link = f.settle.link := by rw [ht, Engine.refresh_link]
  refine ⟨fun p hp => ?_, ?_, fun hlift g hg hid hgroup => ?_, fun htl hsg => ?_⟩
  · rw [hseqt] at hp
    exact (settleKeeps_tagged fun t => t.1 ≠ o.number).settle (tagged _ hne) p (List.mem_append_left _ hp)
  · obtain ⟨hp, -⟩ : Piece.ink.same f f.settle := settle_same f .ink (by decide)
    rw [hseqt, hp, hfseq]
    exact hpoint
  · obtain ⟨hlift, hgs, htx⟩ := behind.noLift hlift
    rw [htail] at hlift
    obtain ⟨-, hgroups⟩ := (settleKeeps_groups f.seq.groups).settle ⟨tagged (fun t => t.2 ≠ .lift) hlift, rfl⟩
    have hgroupst : t.seq.groups = (e.completeOrder o).seq.groups := by rw [hseqt, hgroups, hb]
    obtain ⟨-, nodup, live, -⟩ := ok
    rw [← hgs] at hg nodup live
    obtain ⟨hmore, hlast⟩ := completeOrder_groups hg nodup hid
    rw [hgroupst]
    refine ⟨hmore, fun h1 => ⟨hlast h1, fun htx0 hn0 => ?_⟩⟩
    obtain ⟨htx, hlen, hover⟩ := htx htx0 hn0
    obtain ⟨htxdone, hdone⟩ := completeOrder_link hg nodup (fun h hh => (live h hh).2.2.1) hid h1 on htx
    rw [takeNotice_room hlen hover, ← hlink.2] at hdone
    rw [Engine.raised, hlinkt]
    obtain ⟨-, hkeeps, -⟩ := settle_link f (by rwa [hlink.1])
    exact hkeeps g.notice (by rw [hdone]; simp) rfl
  · obtain ⟨hnil, hstnil, hempty⟩ := behind.alone htl hsg
    have hqnil : f.seq.queue = [] := by
      rw [hfseq]
      simpa [hqueue', ← htail, hnil] using hq
    obtain ⟨-, hrun, hrest⟩ := settle_emptied hqnil (by rw [hfseq]; exact hstage.trans hempty)
    rw [hseqt, ← behind.pause]
    cases hp : e.seq.pausePending with
    | true =>
      obtain ⟨hstate, htimer, -⟩ := hpaused hp
      obtain ⟨ht, hs⟩ := hrest (by rw [hfseq]; simp only [hstate]; decide)
      rw [ht, hs, hfseq]
      exact ⟨htimer, hstate⟩
    | false =>
      obtain ⟨hstate, hpend⟩ := hrunning hp
      obtain ⟨ht, hs⟩ := hrun (by rw [hfseq]; exact hstate.trans behind.running)
      rw [ht, hs, hfseq]
      exact ⟨rfl, by simp only [hpend]⟩

end Sys2Proof.Machine
end

section
set_option Elab.async false
namespace Sys2Proof.Machine

/-! ## What a completion leaves of an order without ink of its own -/

theorem completeOrder_ink {e : Engine} {o : Order} (h : o.kind.name ≠ .strike ∧ o.kind.name ≠ .lift) :
    (e.completeOrder o).seq.ribbonSteps = e.seq.ribbonSteps ∧ (e.completeOrder o).seq.tapeUnits = e.seq.tapeUnits := by
  obtain ⟨q, st, hseq, -⟩ := completeOrder_seq o e
  obtain ⟨hs, hl⟩ := h
  rw [hseq]
  unfold Sequencer.done Sequencer.advanceInk
  cases hk : o.kind with
  | strike f => exact absurd (by rw [hk]; rfl) hs
  | lift r => exact absurd (by rw [hk]; rfl) hl
  | move | ret | feed | wheelChange | paperLoad | paperEject => simp only; split <;> exact ⟨rfl, rfl⟩

/-- Cells of the order that has completed are on paper; older records leave no cell behind, but their mark. -/
theorem completeOrder_line (o : Order) (e : Engine) :
    (e.completeOrder o).comp.line.map (·.start) = e.comp.line.map (·.start) ∧
    (o.kind.advancesLine = false → (e.completeOrder o).comp.line = settledCells o e.comp.line) := by
  have h : Same [.queue, .outgoing, .message] (e.lineDone o) (e.completeOrder o) :=
    (loseFrom_same o.group id _).next (closeGroups_same _)
  obtain ⟨hline, -⟩ : Piece.line.same (e.lineDone o) (e.completeOrder o) := h .line (by decide)
  have hsettled : ∀ l : List Cell, (l.map (·.settled o)).map (·.start) = l.map (·.start) := fun l => by
    rw [List.map_map]
    refine List.map_congr_left fun c _ => ?_
    simp only [Function.comp, Cell.settled]
    split <;> rfl
  have hforgotten : ∀ (slots : List Nat) (l : List Cell), (l.map (·.forget slots)).map (·.start) = l.map (·.start) :=
    fun slots l => by
      rw [List.map_map]
      refine List.map_congr_left fun c _ => ?_
      simp only [Function.comp, Cell.forget]
      split
      · split <;> rfl
      · rfl
  rw [hline]
  unfold Engine.lineDone
  refine ⟨?_, fun hadv => ?_⟩
  · split
    · unfold Engine.advanceGeneration Engine.removeRecords Engine.forget
      simp only
      split
      · exact hsettled _
      · exact (hforgotten _ _).trans (hsettled _)
    · exact hsettled _
  · rw [if_neg (by rw [hadv]; decide)]
    rfl

/-! ## Faults of the executing order (R76) -/

theorem writeFault_first {e : Engine} {new : FaultSlot} (h : e.faults.x = none) :
    (e.writeFault .x new).faults.x = some new := by
  have hb : ∀ (k : FaultKind) (d : Engine), (d.becomeFaulted k).faults = d.faults := fun k d =>
    becomeFaulted_same k d .faults (by decide)
  simp only [Engine.writeFault, h, putFault, if_true, offer_faults, hb]

/-- An X fault of the executing order takes an empty slot, and the sequencer is FAULTED; the order executes on. -/
theorem orderFault_first {e : Engine} {o : Order} (kind : FaultKind) (required : Option Nat) (hd : e.Headed o)
    (hx : e.faults.x = none) (hstate : e.seq.state = .running) :
    (e.orderFault kind o required).faults.x = some (e.faultOf kind (some o) true required) ∧
    (e.orderFault kind o required).seq.state = .faulted ∧ (e.orderFault kind o required).Headed o := by
  obtain ⟨t, b, hs⟩ := writeFault_seq .x (e.faultOf kind (some o) true required) e
  have hfaulted : (e.writeFault .x (e.faultOf kind (some o) true required)).seq.state = .faulted := by
    rw [hs, hstate]
    rfl
  refine ⟨(writeHeld_x _).trans (writeFault_first hx), (writeHeld_state _).2 hfaulted, Engine.Headed.writeHeld ?_⟩
  rwa [Engine.Headed, hs]

theorem advanceOrder_faulted {e : Engine} (h : e.faults.empty = false) : e.advanceOrder = e := by
  unfold Engine.advanceOrder
  split
  · rfl
  · simp [h]

/-! ## The ends of orders (R59, R71, R75) -/

theorem headed_viewLift {o : Order} {e : Engine} (h : e.Headed o) : e.viewLift.Headed o := (settleKeeps_headed o).lift h

/-- Behind a head order nothing has changed but the way of the lift. -/
theorem behind_viewLift {s : State} {e : Engine} (hseq : e.seq = s.seq) (hlink : e.link = s.link)
    (hstate : s.seq.state = .running) (orders : OrdersOk s.seq) : Engine.Behind s.toEngine e.viewLift := by
  obtain ⟨b, hs⟩ := viewLift_seq e
  obtain ⟨-, tx, notices⟩ := viewLift_same e .outgoing (by decide)
  obtain ⟨-, -, -, -, -, hempty, -⟩ := orders
  rw [hseq] at hs
  rw [hlink] at tx notices
  refine ⟨by rw [hs]; exact hstate, by rw [hs], fun hq hst => ?_, fun hlift => ⟨?_, by rw [hs], fun htx hn => ?_⟩⟩
  · rw [hs]
    exact ⟨hq, hst, hempty.2 hst⟩
  · rw [hs]
    exact hlift
  · rw [tx, notices, hn]
    exact ⟨htx, by decide, fun _ h => absurd h List.not_mem_nil⟩

/-- The end of a PAPER_LOAD's feed is the new vertical position 0 (R71). -/
def Engine.rolled (o : Order) (e : Engine) : Engine :=
  if o.kind = .paperLoad then { e with platen := { e.platen with position := 0 } } else e

theorem rolled_same (o : Order) (e : Engine) : Same [.platen] e (e.rolled o) :=
  .ite (withPlaten_same { e.platen with position := 0 } e) (.refl _ _)

theorem rolled_seq (o : Order) (e : Engine) : (e.rolled o).seq = e.seq := by unfold Engine.rolled; split <;> rfl
theorem rolled_link (o : Order) (e : Engine) : (e.rolled o).link = e.link := by unfold Engine.rolled; split <;> rfl

/-- With the platen at rest an order in its feed completes. -/
theorem feeding_ends {e : Engine} {o : Order} (head : e.Headed o) (hf : e.faults.empty = true) (hphase : o.phase = .feeding)
    (hk : (∃ n, o.kind = .ret n) ∨ (∃ n, o.kind = .feed n) ∨ o.kind = .paperLoad ∨ o.kind = .paperEject)
    (hp : e.platen.state = .idle) : e.advanceOrder = (e.rolled o).completeOrder o := by
  rcases hk with ⟨n, hk⟩ | ⟨n, hk⟩ | hk | hk
  · rw [advanceOrder_ret head.executing hf hk, if_pos hphase, if_pos hp, Engine.rolled, if_neg (by rw [hk]; exact OrderKind.noConfusion)]
  · rw [advanceOrder_feed head.executing hf hk, if_pos hphase, if_pos hp, Engine.rolled, if_neg (by rw [hk]; exact OrderKind.noConfusion)]
  · rw [advanceOrder_paper (p := (.paperLoad, 72)) (by simp) head.executing hf hk, Engine.advancePaper, if_pos hphase,
      if_pos hp]
    rfl
  · rw [advanceOrder_paper (p := (.paperEject, 528)) (by simp) head.executing hf hk, Engine.advancePaper, if_pos hphase,
      if_pos hp]
    rfl

/-- The platen after the last edge of a feed. -/
theorem edge_last {p : Platen} (h : p.remaining ≤ 4) : p.edge =
    { p with state := .idle, remaining := 0, timer := none, position := p.position + if p.forward then 4 else -4 } := by
  simp only [Platen.edge, h, if_true]
  rfl

theorem settled_same (f : Engine) : Same settleParts f f.settle.refresh :=
  (settle_same f).trans ((refresh_same _).mono (List.nil_subset _))

/-- What stands once an order without ink of its own has completed and settling is over. -/
theorem completion_settled {e : Engine} {o : Order} (h : o.kind.name ≠ .strike ∧ o.kind.name ≠ .lift) :
    let t := (e.completeOrder o).settle.refresh
    t.platen = e.platen ∧ (t.seq.ribbonSteps = e.seq.ribbonSteps ∧ t.seq.tapeUnits = e.seq.tapeUnits) ∧
    t.memory = (if o.kind.advancesLine then e.memory.nextLine else e.memory) ∧
    (t.comp.line.map (·.start) = e.comp.line.map (·.start) ∧
      (o.kind.advancesLine = false → t.comp.line = settledCells o e.comp.line)) ∧
    Same (.ink :: .line :: .memory :: settleParts) e t := by
  intro t
  have settles : Same settleParts (e.completeOrder o) t := settled_same _
  have ends := completeOrder_same o e
  obtain ⟨-, hribbon, htape⟩ := settles .ink (by decide)
  obtain ⟨hline, -⟩ := settles .line (by decide)
  have hplaten : t.platen = (e.completeOrder o).platen := settles .platen (by decide)
  have hplaten' : (e.completeOrder o).platen = e.platen := ends .platen (by decide)
  have hmemory : t.memory = (e.completeOrder o).memory := settles .memory (by decide)
  obtain ⟨hr, ht⟩ := completeOrder_ink (e := e) h
  obtain ⟨hstarts, hsettled⟩ := completeOrder_line o e
  rw [hline, hribbon, htape, hplaten, hmemory]
  exact ⟨hplaten', ⟨hr, ht⟩, completeOrder_memory o e, ⟨hstarts, hsettled⟩,
    (ends.mono (by decide)).trans (settles.mono (by decide))⟩

/-- The part with the feed's last edge seen and the lift gone its way, as its order completes. -/
def Engine.fedOut (o : Order) (e : Engine) : Engine := Engine.rolled o (Engine.viewLift { e with platen := e.platen.edge })

theorem fedOut_same (o : Order) (e : Engine) : Same [.queue, .lift, .platen] e (e.fedOut o) :=
  Same.next (zs := [.queue, .lift, .platen]) (withPlaten_same e.platen.edge e)
    (Same.next (zs := [.queue, .lift, .platen]) (viewLift_same _) (rolled_same o _))

/-- The last edge of a feed completes its order. -/
theorem feed_after {e : Engine} {o : Order} (alone : e.Alone) (on : e.power.state ≠ .deepOff)
    (hf : e.faults.empty = true) (hd : e.Headed o) (hfeed : e.platen.state = .feeding) (hleft : e.platen.remaining ≤ 4)
    (hphase : o.phase = .feeding)
    (hk : (∃ n, o.kind = .ret n) ∨ (∃ n, o.kind = .feed n) ∨ o.kind = .paperLoad ∨ o.kind = .paperEject)
    (forward : Bool) : (e.platenEdge forward).after = ((e.fedOut o).completeOrder o).settle.refresh := by
  have hevent : e.platenEdge forward = { e with platen := e.platen.edge } := by simp only [Engine.platenEdge, hfeed]
  have hsame := viewLift_same { e with platen := e.platen.edge }
  have hplaten := hsame .platen (by decide)
  have hfaults := hsame .faults (by decide)
  simp only [Piece.same] at hplaten hfaults
  have hd' := headed_viewLift (e := { e with platen := e.platen.edge }) hd
  rw [hevent, after_alone (e := { e with platen := e.platen.edge }) alone on,
    feeding_ends hd' (by rw [hfaults]; exact hf) hphase hk (by rw [hplaten, edge_last hleft])]
  rfl

/-- The platen once a feed's last edge is seen. -/
theorem fedOut_platen {e : Engine} (o : Order) (hleft : e.platen.remaining ≤ 4) : (e.fedOut o).platen =
    { e.platen with
      state := .idle, remaining := 0, timer := none
      position := if o.kind = .paperLoad then 0 else e.platen.position + if e.platen.forward then 4 else -4 } := by
  have hplaten : (Engine.viewLift { e with platen := e.platen.edge }).platen = e.platen.edge :=
    viewLift_same { e with platen := e.platen.edge } .platen (by decide)
  rw [edge_last hleft] at hplaten
  unfold Engine.fedOut Engine.rolled
  split
  · rw [edge_last hleft, hplaten]
  · rw [edge_last hleft, hplaten]

theorem feed_ends {s : State} {o : Order} (aside : s.aside) (hx : s.faults.x = none) (hp : s.faults.p = none)
    (hstate : s.seq.state = .running) (orders : OrdersOk s.seq) (groups : GroupsOk s.seq) (ho : s.executing = some o)
    (hfeed : s.platen.state = .feeding) (hleft : s.platen.remaining ≤ 4) (hphase : o.phase = .feeding)
    (hk : (∃ n, o.kind = .ret n) ∨ (∃ n, o.kind = .feed n) ∨ o.kind = .paperLoad ∨ o.kind = .paperEject)
    (forward : Bool) :
    ∃ t, exec (.platenEncoderEdge forward) s = .next t ∧ Completes o (min 1599 o.horizontal) s t ∧
      t.platen = { s.platen with
        state := .idle, remaining := 0, timer := none
        position := if o.kind = .paperLoad then 0 else s.platen.position + if s.platen.forward then 4 else -4 } ∧
      (t.seq.ribbonSteps = s.seq.ribbonSteps ∧ t.seq.tapeUnits = s.seq.tapeUnits) ∧
      t.memory = (if o.kind.advancesLine then s.memory.nextLine else s.memory) ∧
      (t.comp.line.map (·.start) = s.comp.line.map (·.start) ∧
        (o.kind.advancesLine = false → t.comp.line = settledCells o s.comp.line)) ∧
      Keeps (.platen :: .ink :: .line :: .memory :: settleParts) s t := by
  have hplain : o.endPosition = min 1599 o.horizontal ∧ o.kind.name ≠ .strike ∧ o.kind.name ≠ .lift := by
    rcases hk with ⟨n, hk⟩ | ⟨n, hk⟩ | hk | hk <;> simp [Order.endPosition, hk, OrderKind.name]
  obtain ⟨hend, hname⟩ := hplain
  have hd : s.Headed o := headed_of_executing orders.1 ho
  have hafter := feed_after (Engine.aside.alone aside) aside.1 ((faults_empty_iff _).2 ⟨hx, hp⟩) hd hfeed hleft hphase hk
    forward
  have hfar := fedOut_same o s.toEngine
  obtain ⟨hplaten, hink, hmemory, hline, hsame⟩ := completion_settled (e := s.fedOut o) hname
  obtain ⟨-, hr0, ht0⟩ := hfar .ink (by decide)
  obtain ⟨hline0, -⟩ := hfar .line (by decide)
  have hmemory0 := hfar .memory (by decide)
  simp only [Piece.same] at hmemory0
  rw [hr0, ht0] at hink
  rw [hline0] at hline
  rw [hmemory0] at hmemory
  have head : (s.fedOut o).Headed o := by
    rw [Engine.fedOut, Engine.Headed, rolled_seq]
    exact headed_viewLift hd
  have behind : Engine.Behind s.toEngine (s.fedOut o) := by
    obtain ⟨running, pause, alone, noLift⟩ := behind_viewLift (s := s)
      (e := { s.toEngine with platen := s.platen.edge }) rfl rfl hstate orders
    rw [Engine.fedOut]
    exact ⟨by rwa [rolled_seq], by rwa [rolled_seq], by rwa [rolled_seq], by rwa [rolled_seq, rolled_link]⟩
  have hon : (s.fedOut o).power.state ≠ .deepOff := hfar.power_state.trans_ne aside.1
  generalize hg : ((s.fedOut o).completeOrder o).settle.refresh = g at *
  have hex : exec (.platenEncoderEdge forward) s = .next (s.on fun _ => g) := by
    refine congrArg Host.Outcome.next ?_
    simp only [State.on, if_neg aside.1, hafter]
  refine ⟨s.on fun _ => g, hex, ?_, hplaten.trans (fedOut_platen o hleft), hink, hmemory, hline, rfl, ?_⟩
  · rw [← hend]
    exact completes head behind groups hon ⟨_, rfl⟩ ⟨rfl, rfl⟩ (t := s.on fun _ => g) hg.symm
  · exact (hfar.mono (by decide)).trans (hsame.mono (by decide))

/-- The part with its carriage arrived. -/
def Engine.arrived (e : Engine) : Engine :=
  { e with carriage := { e.carriage with state := .idle, position := e.carriage.target, timer := none } }

theorem carriageReaches_order {e : Engine} (h : e.carriage.state = .moving) (hu : e.carriage.use = .order) :
    e.carriageReaches = e.arrived := by
  have hu' : e.arrived.carriage.use = .order := hu
  have harrives : e.arrived.carriageArrives = e.arrived := by simp only [Engine.carriageArrives, hu']
  rw [Engine.carriageReaches, if_pos h]
  exact harrives

/-- A RETURN's carriage that arrives starts its feed. -/
theorem ret_arrives {s : State} {o : Order} {n : Nat} (aside : s.aside) (hx : s.faults.x = none) (hp : s.faults.p = none)
    (orders : OrdersOk s.seq) (ho : s.executing = some o) (hk : o.kind = .ret n) (hn : 0 < n) (hphase : o.phase = .start)
    (hmoving : s.carriage.state = .moving) (huse : s.carriage.use = .order)
    (htarget : s.carriage.target = min 1599 o.horizontal) (hlift : s.lift.state ≠ .moving) (quiet : s.quiet)
    (hview : s.seq.liftToView = false) :
    ∃ t, exec .carriageMoveEnd s = .next t ∧
      t.carriage = { s.carriage with state := .idle, position := min 1599 o.horizontal, timer := none } ∧
      t.platen = { s.platen with state := .feeding, remaining := n, forward := true, timer := some 20000 } ∧
      t.seq.queue.head? = some { o with phase := .feeding } ∧ Keeps (.carriage :: .platen :: settleParts) s t := by
  have hf : s.faults.empty = true := (faults_empty_iff _).2 ⟨hx, hp⟩
  have hd : s.arrived.Headed o := headed_of_executing orders.1 ho
  obtain ⟨hstep, -, head⟩ := feed_starts (e := s.arrived) (n := n) hd hf hphase quiet rfl hlift (by omega)
    (.inl ⟨n, hk, rfl, htarget⟩)
  have hforward : decide ((0 : Int) < n) = true := by simpa using hn
  rw [hforward, Int.natAbs_natCast] at hstep head
  have hsame : Same [.carriage, .queue, .platen] s.toEngine s.arrived.advanceOrder := by
    rw [hstep]
    exact Same.next (zs := [.carriage, .queue, .platen]) (withCarriage_same _ _) (fed_same o n true s.arrived)
  have hcar : s.arrived.advanceOrder.carriage = s.arrived.carriage := by
    rw [hstep]
    rfl
  have hplaten : s.arrived.advanceOrder.platen = s.platen.fed n true := by rw [hstep]; rfl
  have hafter : s.carriageReaches.after = s.arrived.advanceOrder.settle.refresh := by
    rw [carriageReaches_order hmoving huse, after_alone (e := s.arrived) (Engine.aside.alone aside) aside.1,
      viewLift_not_waiting (e := s.arrived) hview]
  rw [← hstep] at head
  generalize s.arrived.advanceOrder = f at *
  have hfar := settled_same f
  have hhead := (settleKeeps_headed _).settle head
  have hhead' : f.settle.refresh.seq.queue.head? = some { o with phase := .feeding } := by
    rw [Engine.refresh_seq, hhead.head]
  generalize f.settle.refresh = g at *
  have hex : exec .carriageMoveEnd s = .next (s.on fun _ => g) := by
    refine congrArg Host.Outcome.next ?_
    simp only [State.on, hafter]
  have hcar' : g.carriage = f.carriage := hfar .carriage (by decide)
  have hplaten' : g.platen = f.platen := hfar .platen (by decide)
  refine ⟨s.on fun _ => g, hex, ?_, hplaten'.trans hplaten, hhead', rfl,
    (hsame.mono (by decide)).trans (hfar.mono (by decide))⟩
  exact (hcar'.trans hcar).trans (by rw [← htarget]; rfl)

/-! ## The homing of a WHEEL_CHANGE ends (R55, R56, R59, R91) -/

/-- The executing order with a fault of its own, settled. -/
theorem fault_stays {s : State} {i : Instr} {e : Engine} {o : Order} {kind : FaultKind} {required : Option Nat}
    (hname : o.kind.name = .wheelChange) (alone : e.Alone) (on : e.power.state ≠ .deepOff) (hd : e.Headed o)
    (hx : e.faults.x = none) (hstate : e.seq.state = .running)
    (hsame : Same (.wheel :: settleParts) s.toEngine e)
    (hexec : ∀ g, (e.orderFault kind o required).after = g → exec i s = .next (s.on fun _ => g)) :
    ∃ t, exec i s = .next t ∧
      (∃ q, t.seq.queue.head? = some q ∧ q.number = o.number ∧ q.state = .executing) ∧
      t.wheel.mounted = e.wheel.mounted ∧
      (∃ f, t.faults.x = some f ∧ f.kind = kind ∧ f.order = some .wheelChange ∧ f.group = o.group ∧
        f.required = required) ∧
      t.seq.state = .faulted ∧ Keeps (.wheel :: settleParts) s t := by
  obtain ⟨hfault, hfaulted, hd'⟩ := orderFault_first kind required hd hx hstate
  have hfar := orderFault_same kind o required e
  generalize e.orderFault kind o required = f at *
  have hlifted : f.viewLift.Headed o := headed_viewLift hd'
  have hview := viewLift_same f
  have hstate' : f.viewLift.seq.state = .faulted := by
    obtain ⟨b, hs⟩ := viewLift_seq f
    rw [hs]
    exact hfaulted
  have hfault' : f.viewLift.faults = f.faults := hview .faults (by decide)
  have hfull : f.viewLift.faults.empty = false := by
    rw [hfault']
    simp [FaultRecord.empty, hfault]
  have hafter : f.after = f.viewLift.settle.refresh := by
    rw [after_alone (hfar.alone alone) (hfar.power_state.trans_ne on), advanceOrder_faulted hfull]
  rw [← hfault'] at hfault
  generalize f.viewLift = g at *
  have hend := settled_same g
  have h1 := (settleKeeps_headed o).settle hlifted
  have h2 := (settleKeeps_state (.inr rfl)).settle hstate'
  have h3 := settle_x g
  have hhead : g.settle.refresh.seq.queue.head? = some o := by rw [Engine.refresh_seq, h1.head]
  have hst : g.settle.refresh.seq.state = .faulted := by rw [Engine.refresh_seq, h2]
  have hfx : g.settle.refresh.faults.x = g.faults.x := by rw [Engine.refresh_faults, h3]
  generalize g.settle.refresh = t at *
  have w1 := congrArg Wheel.mounted (hend .wheel (by decide))
  have w2 := congrArg Wheel.mounted (hview .wheel (by decide))
  have w3 := congrArg Wheel.mounted (hfar .wheel (by decide))
  refine ⟨s.on fun _ => t, hexec t hafter, ⟨o, hhead, rfl, hd.1⟩, w1.trans (w2.trans w3),
    ⟨_, hfx.trans hfault, rfl, ?_, rfl, rfl⟩, hst, rfl, ?_⟩
  · exact congrArg some hname
  · exact hsame.trans ((hfar.mono (by decide)).trans ((hview.mono (by decide)).trans (hend.mono (by decide))))

end Sys2Proof.Machine
end

section
set_option Elab.async false
namespace Sys2Proof.Machine

/-! ## A notice and the prepare stage behind it -/

/-- A notice is offered, and the P order is prepared again (R69, R191; log 16). -/
def Engine.heard (n : Notice) (e : Engine) : Engine := (e.offer n).prepare

theorem heard_same (n : Notice) (e : Engine) : Same [.queue, .outgoing, .message] e (e.heard n) :=
  (offer_same n e).next (prepare_same _)

theorem heard_headed {n : Notice} {e : Engine} {o : Order} (h : e.Headed o) : (e.heard n).Headed o := by
  refine (settleKeeps_headed o).toPrepareKeeps.prepare ?_
  rwa [Engine.Headed, offer_seq]

/-- Preparing leaves a sequencer that RUNS running. -/
theorem prepareKeeps_running (b : Bool) : PrepareKeeps fun e => e.seq.state = .running ∧ e.seq.pausePending = b where
  drain := fun {e} ⟨hr, hb⟩ => ⟨(drain_state e).trans hr, by unfold Engine.drain; split <;> exact hb⟩
  rouse := fun {e} ⟨hr, hb⟩ => by rw [rouse_awake (by rw [hr]; decide)]; exact ⟨hr, hb⟩
  stale := fun h _ _ => by rwa [dropStale_seq]
  check := fun h _ => h

/-- Behind a head order that is alone nothing is prepared. -/
theorem prepareKeeps_alone (o : Order) : PrepareKeeps fun e =>
    e.Headed o ∧ e.seq.queue.tail = [] ∧ e.seq.stage = [] ∧ e.seq.stageState = .empty := by
  have hnone : ∀ {e : Engine} {p : Order}, e.Headed o → e.seq.queue.tail = [] → e.pOrder ≠ some p :=
    fun {e p} ⟨hx, rest, hq, _⟩ ht hp => by
      rw [hq, List.tail_cons] at ht
      simp [Engine.pOrder, hq, hx, ht] at hp
  exact {
    drain := fun {e} h => by rw [drain_not_filling (by rw [h.2.2.2]; decide)]; exact h
    rouse := fun {e} ⟨hd, ht, hs, he⟩ => ⟨(settleKeeps_headed o).rouse hd, by simp [ht], by simp [hs], by simp [he]⟩
    stale := fun ⟨hd, ht, _⟩ hp _ => absurd hp (hnone hd ht)
    check := fun ⟨hd, ht, _⟩ hp => absurd hp (hnone hd ht) }

/-- No order executes but the head. -/
def Engine.Waiting (e : Engine) : Prop := ∀ p ∈ e.seq.queue.tail ++ e.seq.stage, p.state ≠ .executing

theorem prepared_state {r : Check} {p : Order} (h : p.state ≠ .executing) : (p.prepared r).state ≠ .executing := by
  unfold Order.prepared
  split
  · exact OrderState.noConfusion
  · split
    · exact h
    · exact OrderState.noConfusion
  · exact h
  · exact h

/-- Preparing makes no order execute. -/
theorem prepareKeeps_waiting (o : Order) : PrepareKeeps fun e => e.Headed o ∧ e.Waiting where
  drain := fun {e} ⟨hd, hw⟩ => by
    refine ⟨(settleKeeps_headed o).drain hd, ?_⟩
    have happend := drain_append e
    obtain ⟨k, hq, hs⟩ := drain_orders e
    obtain ⟨-, rest, hqueue, -⟩ := hd
    rw [Engine.Waiting, hqueue] at hw
    rw [Engine.Waiting, hq, hs, hqueue, List.cons_append, List.tail_cons, List.append_assoc, List.take_append_drop]
    exact hw
  rouse := fun {e} ⟨hd, hw⟩ => ⟨(settleKeeps_headed o).rouse hd, by rwa [Engine.Waiting, rouse_queue, rouse_stage]⟩
  stale := fun {e p} ⟨hd, hw⟩ hp hs => by
    refine ⟨(settleKeeps_headed o).stale hd hp hs, fun q hq => hw q ?_⟩
    have hne := hd.pOrder_ne hp
    obtain ⟨-, rest, hqueue, -⟩ := hd
    rw [dropStale_seq] at hq
    simp only [hqueue] at hq ⊢
    rw [List.filter_cons_of_pos (by simpa using hne.symm), List.tail_cons] at hq
    rcases List.mem_append.1 hq with h | h
    · exact List.mem_append_left _ (List.mem_filter.1 h).1
    · exact List.mem_append_right _ h
  check := fun {e p} ⟨hd, hw⟩ hp => by
    refine ⟨(settleKeeps_headed o).check hd hp, fun q hq => ?_⟩
    simp only [Engine.editOrder, ← List.map_tail] at hq
    rcases List.mem_append.1 hq with h | h
    · obtain ⟨r, hr, rfl⟩ := List.mem_map.1 h
      have := hw r (List.mem_append_left _ hr)
      split
      · exact prepared_state this
      · exact this
    · exact hw q (List.mem_append_right _ h)

/-- A kind that ends no line leaves the orders behind it as they are. -/
theorem completeOrder_queue {e : Engine} {o : Order} (h : o.kind.advancesLine = false) :
    (e.completeOrder o).seq.queue = e.seq.queue.tail := by
  have hdone : (e.seq.done o).queue = e.seq.queue.tail := by
    rw [← List.drop_one]
    unfold Sequencer.done Sequencer.advanceInk
    cases o.kind <;> simp only <;> split <;> rfl
  rw [completeOrder_eq, closeGroups_seq, ← hdone]
  simp only [Engine.loseFrom, Engine.lineDone, h]
  rfl

theorem completeOrder_plain_same {o : Order} (h : o.kind.advancesLine = false) (e : Engine) :
    Same [.queue, .ink, .line, .outgoing, .message] e (e.completeOrder o) := fun p hp => by
  by_cases hm : p = .memory
  · subst hm
    have k := completeOrder_memory o e
    rw [h] at k
    exact k
  · exact completeOrder_same o e p (by simp only [List.mem_cons, List.not_mem_nil, or_false, not_or] at hp ⊢; tauto)

theorem completeOrder_keeps {o : Order} {e : Engine} {l : Link} (h : l.Keeps e.link) : l.Keeps (e.completeOrder o).link :=
  closeGroups_keeps (((lineDone_same o e).trans ((loseFrom_same o.group id _).mono (by decide))).link h)

/-- With nothing else owning a motion, what settles behind the completion of the head order. -/
theorem completion_after {e : Engine} {o : Order} (hadv : o.kind.advancesLine = false) (hw : e.Waiting) (alone : e.Alone)
    (on : e.power.state ≠ .deepOff) : (e.completeOrder o).after = (e.completeOrder o).viewLift.settle.refresh := by
  have hsame := completeOrder_plain_same hadv e
  refine after_idle (hsame.alone alone) ?_ (hsame.power_state.trans_ne on)
  unfold Engine.executing
  rw [completeOrder_queue hadv]
  split
  · rename_i p rest hq
    exact if_neg (hw p (List.mem_append_left _ (by rw [hq]; exact List.mem_cons_self)))
  · rfl

/-- What stands behind a head order that is no LIFT once a notice has been offered and the next order prepared. -/
theorem behind_heard {s e : Engine} {o : Order} {n : Notice} (hd : e.Headed o) (hname : o.kind.name ≠ .lift)
    (hseq : e.seq = s.seq) (hlink : e.link = s.link) (on : e.power.state ≠ .deepOff) (hn : n.isOverflow = false)
    (hstate : s.seq.state = .running) (orders : OrdersOk s.seq) : Engine.Behind s (e.heard n) := by
  have hoffer : (e.offer n).seq = s.seq := (offer_seq n e).trans hseq
  obtain ⟨-, -, -, -, -, hempty, -⟩ := orders
  obtain ⟨hrun, hpause⟩ := (prepareKeeps_running s.seq.pausePending).prepare (e := e.offer n)
    ⟨by rwa [hoffer], by rw [hoffer]⟩
  refine ⟨hrun, hpause, fun hq hst => ?_, fun hlift => ?_⟩
  · obtain ⟨-, halone⟩ := (prepareKeeps_alone o).prepare (e := e.offer n)
      ⟨by rwa [Engine.Headed, offer_seq], by rw [hoffer, hq], by rw [hoffer, hst], by rw [hoffer]; exact hempty.2 hst⟩
    exact halone
  · have hno : (e.offer n).NoLift := fun p hp => by
      obtain ⟨-, rest, hq, -⟩ := hd
      rw [hseq] at hq
      rw [hoffer, hq] at hp
      rw [hq] at hlift
      rcases List.mem_cons.1 hp with rfl | hp
      · exact hname
      · exact hlift p hp
    obtain ⟨hno', hgroups, hl⟩ := (prepareKeeps_noLift s.seq.groups (e.offer n).link).prepare (e := e.offer n)
      ⟨hno, by rw [hoffer], rfl⟩
    refine ⟨fun p hp => hno' p ?_, hgroups, fun htx hnone => ?_⟩
    · rcases List.mem_append.1 hp with hp | hp
      · exact List.mem_append_left _ (List.mem_of_mem_tail hp)
      · exact List.mem_append_right _ hp
    · rw [Engine.heard, hl, offer_link on, hlink, Link.noticed_busy n htx, hnone]
      exact ⟨htx, (by simp [takeNotice]), fun m hm => by rw [List.mem_singleton.1 hm, hn]⟩

/-- A notice that is offered with nothing waiting is still there once the next order is prepared. -/
theorem heard_raises {e : Engine} {n : Notice} (on : e.power.state ≠ .deepOff) (htx : e.link.tx ≠ none)
    (hnone : e.link.notices = []) (hn : n.isOverflow = false) : (e.heard n).link.tx ≠ none ∧ (e.heard n).raised n := by
  have htx' : (e.offer n).link.tx ≠ none := by rw [offer_link on, Link.noticed_busy n htx]; exact htx
  obtain ⟨htx'', hkeeps, -⟩ := (settleKeeps_link (e.offer n).link).toPrepareKeeps.prepare (e := e.offer n) (.refl _) htx'
  exact ⟨htx'', hkeeps n (offer_raises on htx hnone) hn⟩

/-! ## The ends of a WHEEL_CHANGE's homing (R55, R56) -/

/-- The part with its wheel UNKNOWN and no mounted wheel (R55). -/
def Engine.unmounted (e : Engine) : Engine :=
  { e with wheel := { e.wheel with state := .unknown, petal := none, mounted := none, timer := none, homing := none } }

/-- The part with the wheel at rest on petal 0 and its code read (R56). -/
def Engine.mountedOn (code : Nat) (comp : Option Nat) (e : Engine) : Engine :=
  { e with
    wheel := { e.wheel with
      state := .settled, petal := some 0, mounted := some code, timer := none, homing := none
      lostByTest := false, recoveryFailed := false }
    comp := { e.comp with wheel := comp } }

theorem unmounted_same (e : Engine) : Same [.wheel] e e.unmounted := withWheel_same _ e

theorem mountedOn_same (code : Nat) (comp : Option Nat) (e : Engine) :
    Same [.wheel, .compWheel] e (e.mountedOn code comp) := by
  intro p hp
  cases p <;> first
    | exact absurd (by decide) hp
    | (simp only [Piece.same, Engine.mountedOn] <;> (and_intros <;> first | rfl | exact True.intro))

theorem homingFails_eq {h : Homing} (kind : FaultKind) (e : Engine) (hu : h.use ≠ .selfTest) : e.homingFails h kind =
    (e.unmounted.heard (.wheel h.use.cause .failed none h.required)).afterHoming h (some (kind, none)) := by
  rw [Engine.homingFails, if_neg hu]
  rfl

/-- A homing that reads the code required, or any when none is, mounts it. -/
theorem homingEnds_mounted {h : Homing} {code : Nat} (e : Engine) (hr : h.required = none ∨ h.required = some code) :
    e.homingEnds h code = ((e.mountedOn code (e.mountedWheel h code)).heard
      (.wheel h.use.cause .mounted (some code) h.required)).afterHoming h none := by
  have hout : e.outcome h code = .mounted := by
    rcases hr with hr | hr <;> simp [Engine.outcome, hr]
  simp only [Engine.homingEnds, hout, reduceCtorEq, and_false, if_false]
  rfl

theorem homingEnds_mismatch {h : Homing} {code : Nat} (e : Engine) (hu : h.use ≠ .selfTest)
    (hout : e.outcome h code = .mismatch) :
    e.homingEnds h code = ((e.mountedOn code e.comp.wheel).heard
      (.wheel h.use.cause .mismatch (some code) h.required)).afterHoming h (some (.wheelMismatch, h.required)) := by
  simp only [Engine.homingEnds, hout, hu, false_and, if_false, if_true]
  rfl

theorem afterHoming_change {h : Homing} {e : Engine} {o : Order} (hu : h.use = .change) (hx : e.executing = some o) :
    (∀ f, e.afterHoming h (some f) = e.orderFault f.1 o f.2) ∧
    (e.faults.empty = true → e.afterHoming h none = e.completeOrder o) := by
  refine ⟨fun f => ?_, fun hf => ?_⟩
  · simp only [Engine.afterHoming, hu, hx]
  · simp only [Engine.afterHoming, hu, hx, hf, if_true]

/-- An operation that leaves the wheel alone, but for the code that its next homing may find. -/
theorem Same.wheel {xs : List Piece} {e f : Engine} (h : Same xs e f) (hp : Piece.wheel ∉ xs := by decide) :
    { f.wheel with found := none } = { e.wheel with found := none } := h .wheel hp

theorem heard_alone {e : Engine} {n : Notice} (h : e.Alone) : (e.heard n).Alone := (heard_same n e).alone h

section change
variable {s : State} {o : Order} {h : Homing}

/-- A WHEEL_CHANGE's homing that gives a fault leaves the order executing with it. -/
theorem change_faults {i : Instr} {d : Engine} {n : Notice} {kind : FaultKind} {required : Option Nat}
    (hname : o.kind.name = .wheelChange) (aside : s.aside) (hx : s.faults.x = none) (hstate : s.seq.state = .running)
    (hd : d.Headed o) (hu : h.use = .change) (hsame : Same [.wheel] s.toEngine d) (hseq : d.seq.state = s.seq.state)
    (hexec : ∀ g, ((d.heard n).afterHoming h (some (kind, required))).after = g → exec i s = .next (s.on fun _ => g)) :
    ∃ t, exec i s = .next t ∧
      (∃ q, t.seq.queue.head? = some q ∧ q.number = o.number ∧ q.state = .executing) ∧
      t.wheel.mounted = d.wheel.mounted ∧
      (∃ f, t.faults.x = some f ∧ f.kind = kind ∧ f.order = some .wheelChange ∧ f.group = o.group ∧
        f.required = required) ∧
      t.seq.state = .faulted ∧ Keeps (.wheel :: settleParts) s t := by
  have head : (d.heard n).Headed o := heard_headed hd
  have hfar := heard_same n d
  have hfaults : (d.heard n).faults = d.faults := hfar .faults (by decide)
  have hfaults' : d.faults = s.faults := hsame .faults (by decide)
  have hwheel : (d.heard n).wheel.mounted = d.wheel.mounted := (congrArg Wheel.mounted hfar.wheel :)
  have hrun : (d.heard n).seq.state = .running :=
    ((prepareKeeps_running (d.offer n).seq.pausePending).prepare (e := d.offer n)
      ⟨by rw [offer_seq, hseq, hstate], rfl⟩).1
  have alone : (d.heard n).Alone := hfar.alone (hsame.alone (Engine.aside.alone aside))
  have on : (d.heard n).power.state ≠ .deepOff := hfar.power_state.trans_ne (hsame.power_state.trans_ne aside.1)
  rw [← hwheel]
  refine fault_stays hname alone on head (by rw [hfaults, hfaults', hx]) hrun
    ((hsame.mono (by decide)).trans (hfar.mono (by decide))) fun g hg => hexec g ?_
  rw [(afterHoming_change hu head.executing).1]
  exact hg

end change

/-- A WHEEL_CHANGE whose homing reads the required code completes. -/
theorem change_completes {s : State} {o : Order} {h : Homing} {code x : Nat} (aside : s.aside) (hx : s.faults.x = none)
    (hp : s.faults.p = none) (hstate : s.seq.state = .running) (orders : OrdersOk s.seq) (groups : GroupsOk s.seq)
    (ho : s.executing = some o) (hk : o.kind = .wheelChange x) (hw : s.wheel.state = .homing)
    (hh : s.wheel.homing = some h) (hu : h.use = .change) (hphase : h.phase = .park code)
    (hr : h.required = none ∨ h.required = some code) :
    ∃ t, exec .wheelSettled s = .next t ∧ Completes o (min 1599 o.horizontal) s t ∧
      t.wheel.state = .settled ∧ t.wheel.petal = some 0 ∧ t.wheel.mounted = some code ∧ t.wheel.homing = none ∧
      t.comp.wheel = (if h.required = none ∨ s.comp.wheel = none then some code else s.comp.wheel) ∧
      (s.link.tx ≠ none → s.link.notices = [] → t.raised (.wheel .change .mounted (some code) h.required)) ∧
      Keeps (.wheel :: .compWheel :: .ink :: .line :: settleParts) s t := by
  obtain ⟨n, hn⟩ : ∃ n : Notice, n = .wheel .change .mounted (some code) h.required := ⟨_, rfl⟩
  have hover : n.isOverflow = false := by rw [hn]; rfl
  have hname : o.kind.name ≠ .lift := by rw [hk]; exact OrderName.noConfusion
  have hend : o.endPosition = min 1599 o.horizontal := by simp only [Order.endPosition, hk]
  have hink : o.kind.name ≠ .strike ∧ o.kind.name ≠ .lift := ⟨by rw [hk]; exact OrderName.noConfusion, hname⟩
  have hcomp : s.mountedWheel h code = if h.required = none ∨ s.comp.wheel = none then some code else s.comp.wheel := by
    by_cases hc : s.comp.wheel = none
    · simp [Engine.mountedWheel, hc]
    · by_cases hq : h.required = none <;> simp [Engine.mountedWheel, hc, hq, hu, HomingUse.cause]
  have hd : (s.mountedOn code (s.mountedWheel h code)).Headed o := headed_of_executing orders.1 ho
  have hmount := mountedOn_same code (s.mountedWheel h code) s.toEngine
  have hon : (s.mountedOn code (s.mountedWheel h code)).power.state ≠ .deepOff := aside.1
  have behind := behind_heard (s := s.toEngine) (n := n) hd hname rfl rfl hon hover hstate orders
  have hraise := fun htx hnone => heard_raises (n := n) (e := s.mountedOn code (s.mountedWheel h code)) hon htx hnone hover
  have hwaits : ((s.mountedOn code (s.mountedWheel h code)).heard n).Headed o ∧
      ((s.mountedOn code (s.mountedWheel h code)).heard n).Waiting := by
    refine (prepareKeeps_waiting o).prepare (e := (s.mountedOn code (s.mountedWheel h code)).offer n) ⟨?_, fun p hp => ?_⟩
    · rwa [Engine.Headed, offer_seq]
    · rw [offer_seq] at hp
      obtain ⟨-, -, htail, -, hstage, -⟩ := orders
      rcases List.mem_append.1 hp with hp | hp
      · exact htail p hp
      · rw [(hstage p hp).1]
        exact OrderState.noConfusion
  have hfar := heard_same n (s.mountedOn code (s.mountedWheel h code))
  have hevent : s.wheelRests = ((s.mountedOn code (s.mountedWheel h code)).heard n).afterHoming h none := by
    simp only [Engine.wheelRests, hw, hh, hphase]
    rw [homingEnds_mounted _ hr, hu, hn]
    rfl
  generalize hm : (s.mountedOn code (s.mountedWheel h code)) = m at *
  generalize m.heard n = e at *
  obtain ⟨head, hwait⟩ := hwaits
  have hadv : o.kind.advancesLine = false := by simp only [hk, OrderKind.advancesLine]
  have hfaults : e.faults = m.faults := hfar .faults (by decide)
  have hfaults' : m.faults = s.faults := hmount .faults (by decide)
  have alone : e.Alone := hfar.alone (hmount.alone (Engine.aside.alone aside))
  have on : e.power.state ≠ .deepOff := hfar.power_state.trans_ne hon
  have hplain := completeOrder_plain_same hadv e
  rw [(afterHoming_change hu head.executing).2 (by rw [hfaults, hfaults']; exact (faults_empty_iff _).2 ⟨hx, hp⟩)] at hevent
  have hafter : s.wheelRests.after = (e.completeOrder o).viewLift.settle.refresh := by
    rw [hevent, completion_after hadv hwait alone on]
  have hview := viewLift_same (e.completeOrder o)
  have hseq := viewLift_seq (e.completeOrder o)
  obtain ⟨-, htx, hnotices⟩ := hview .outgoing (by decide)
  have hkeeps : e.link.Keeps (e.completeOrder o).viewLift.link := hview.link (completeOrder_keeps (.refl _))
  have hcompletes := fun t => completes (s := s) (t := t) head behind groups on hseq ⟨htx, hnotices⟩
  generalize (e.completeOrder o).viewLift = f at *
  generalize e.completeOrder o = c at *
  have hlink : e.link.Keeps f.settle.refresh.link := by
    rw [Engine.refresh_link f.settle]
    exact hkeeps.trans (settle_link f)
  have hfin := settled_same f
  generalize f.settle.refresh = g at *
  have hex : exec .wheelSettled s = .next (s.on fun _ => g) := by
    refine congrArg Host.Outcome.next ?_
    simp only [State.on, hafter]
  have hall : Same (.ink :: .line :: settleParts) m g := (hfar.mono (by decide)).trans
    ((hplain.mono (by decide)).trans ((hview.mono (by decide)).trans (hfin.mono (by decide))))
  have hwheel := hall.wheel
  have hcompwheel : g.comp.wheel = m.comp.wheel := hall .compWheel (by decide)
  have mounted : { m.wheel with found := none } = { s.wheel with
      state := .settled, petal := some 0, mounted := some code, timer := none, homing := none
      lostByTest := false, recoveryFailed := false, found := none } := by rw [← hm]; rfl
  rw [mounted] at hwheel
  refine ⟨s.on fun _ => g, hex, ?_, (congrArg Wheel.state hwheel :), (congrArg Wheel.petal hwheel :),
    (congrArg Wheel.mounted hwheel :), (congrArg Wheel.homing hwheel :), ?_, fun htx0 hn0 => ?_, rfl, ?_⟩
  · rw [← hend]
    exact hcompletes _ rfl
  · refine hcompwheel.trans (Eq.trans ?_ hcomp)
    rw [← hm]
    rfl
  · have hlinkm : m.link = s.link := by rw [← hm]; rfl
    obtain ⟨htxe, hraised⟩ := hraise (by rwa [hlinkm]) (by rwa [hlinkm])
    rw [← hn]
    exact (hlink htxe).2.1 n hraised hover
  · exact (hmount.mono (by decide)).trans (hall.mono (by decide))

theorem advancesLine_iff {k : OrderKind} : k.advancesLine = true ↔ (∃ n, k = .ret n) ∨ ∃ n, k = .feed n ∧ 8 ≤ n := by
  cases k <;> simp [OrderKind.advancesLine]

/-- Settles O59: the feeds by the edge that ends them, the WHEEL_CHANGE by its homing's end; the completion itself is
`completes`. -/
theorem orderEnds : Obligations.OrderEnds := by
  unfold Obligations.OrderEnds
  intro s aside hrun hx hp hstate orders groups o ho
  refine ⟨fun n hk hn hphase hmoving huse htarget hlift quiet hview =>
      ret_arrives aside hx hp orders ho hk hn hphase hmoving huse htarget hlift quiet hview,
    fun hfeed hleft hphase hk forward => ?_, fun x hk hphase hw h hh hu => ⟨fun hsearch => ?_, fun code hpark => ⟨?_, fun hr =>
      change_completes aside hx hp hstate orders groups ho hk hw hh hu hpark hr, fun r hr hne => ?_⟩⟩⟩
  · obtain ⟨t, hex, hdone, hplaten, hink, hmemory, ⟨hstarts, hsettled⟩, keeps⟩ :=
      feed_ends aside hx hp hstate orders groups ho hfeed hleft hphase hk forward
    refine ⟨t, hex, hdone, hplaten, hink.1, hink.2, fun hadv => ⟨?_, hstarts⟩, fun hadv => ?_, keeps⟩
    · rw [hmemory, if_pos (advancesLine_iff.2 hadv)]
    · have hno : ¬ o.kind.advancesLine = true := fun h => hadv (advancesLine_iff.1 h)
      rw [hmemory, if_neg hno]
      exact ⟨rfl, hsettled (Bool.eq_false_iff.2 hno)⟩
  all_goals
    have hd : s.Headed o := headed_of_executing orders.1 ho
    have hname : o.kind.name = .wheelChange := by rw [hk]; rfl
    have huse : h.use ≠ .selfTest := by rw [hu]; decide
  · refine change_faults (d := s.unmounted) (n := .wheel h.use.cause .failed none h.required) hname aside hx hstate hd hu
      (unmounted_same _) rfl fun g hg => congrArg Host.Outcome.next ?_
    have hevent : s.searchEnds = s.homingFails h .wheelHomeFail := by
      simp only [Engine.searchEnds, Engine.homing, hw, hh, hsearch, if_true]
    simp only [State.on, hevent, homingFails_eq _ _ huse, hg]
  · refine change_faults (d := s.unmounted) (n := .wheel h.use.cause .failed none h.required) hname aside hx hstate hd hu
      (unmounted_same _) rfl fun g hg => congrArg Host.Outcome.next ?_
    have hevent : s.wheelStalls = s.homingFails h .wheelStall := by
      simp only [Engine.wheelStalls, hw, hh, hpark]
    simp only [State.on, hevent, homingFails_eq _ _ huse, hg]
  · have hout : s.outcome h code = .mismatch := by
      simp [Engine.outcome, hr, hne, hu, Engine.adopts]
    rw [← hr]
    refine change_faults (d := s.mountedOn code s.comp.wheel)
      (n := .wheel h.use.cause .mismatch (some code) h.required) hname aside hx hstate hd hu ?_ rfl fun g hg =>
        congrArg Host.Outcome.next ?_
    · exact withWheel_same _ s.toEngine
    have hevent : s.wheelRests = s.homingEnds h code := by
      simp only [Engine.wheelRests, hw, hh, hpark]
    simp only [State.on, hevent, homingEnds_mismatch _ huse hout, hg]

end Sys2Proof.Machine
end

section
set_option Elab.async false
namespace Sys2Proof.Machine

/-! ## WHEEL_CHANGE (R58) -/

/-- What an order is for: its number, kind, group and target. -/
def Order.aim (o : Order) : Nat × OrderKind × Nat × Nat := (o.number, o.kind, o.group, o.horizontal)

theorem prepared_aim (r : Check) (o : Order) : (o.prepared r).aim = o.aim := by
  unfold Order.prepared
  split
  · rfl
  · split <;> rfl
  · rfl
  · rfl

/-- With nothing in the release stage, the last order of the queue is one that is no LIFT, and none before it has its
number. -/
def Engine.Last (a : Nat × OrderKind × Nat × Nat) (e : Engine) : Prop :=
  e.seq.stageState = .empty ∧ a.2.1.name ≠ .lift ∧
    ∃ init o, e.seq.queue = init ++ [o] ∧ o.aim = a ∧ ∀ p ∈ init, p.number ≠ a.1

theorem Engine.Last.map {a : Nat × OrderKind × Nat × Nat} {e f : Engine} (h : e.Last a) {g : Order → Order}
    (hst : f.seq.stageState = e.seq.stageState) (hq : f.seq.queue = e.seq.queue.map g)
    (hnum : ∀ p, (g p).number = p.number) (hg : ∀ p : Order, p.aim = a → (g p).aim = a) : f.Last a := by
  obtain ⟨hstage, hk, init, o, hqueue, ho, hne⟩ := h
  refine ⟨hst.trans hstage, hk, init.map g, g o, by rw [hq, hqueue, List.map_append]; rfl, hg o ho, fun p hp => ?_⟩
  obtain ⟨r, hr, rfl⟩ := List.mem_map.1 hp
  rw [hnum]
  exact hne r hr

theorem Engine.Last.edit {a : Nat × OrderKind × Nat × Nat} {e : Engine} (h : e.Last a) {n : Nat} {f : Order → Order}
    (hf : ∀ p, (f p).aim = p.aim) : (e.editOrder n f).Last a :=
  h.map (g := fun p => if p.number = n then f p else p) rfl rfl
    (fun p => by split; exacts [congrArg Prod.fst (hf p), rfl])
    (fun p hp => by split; exacts [(hf p).trans hp, hp])

/-- Settling leaves the order at the end of the queue. -/
theorem settleKeeps_last (a : Nat × OrderKind × Nat × Nat) : SettleKeeps (Engine.Last a) where
  drain := fun {e} h => by rwa [drain_not_filling (by rw [h.1]; decide)]
  rouse := fun {e} h => by rwa [Engine.Last, rouse_stageState, rouse_queue]
  stale := fun {e p} h hp hs => by
    obtain ⟨hst, hk, init, o, hq, ho, hne⟩ := h
    have hpo : p.number ≠ o.number := fun heq => by
      have hmem := pOrder_mem hp
      rw [hq] at hmem
      rcases List.mem_append.1 hmem with hm | hm
      · exact hne p hm (heq.trans (congrArg Prod.fst ho))
      · rw [List.mem_singleton.1 hm] at hs
        refine hk ?_
        rw [← ho]
        exact check_stale hs
    refine ⟨by rw [dropStale_seq]; exact hst, hk, init.filter fun q => q.number ≠ p.number, o, ?_, ho, fun q hq' =>
      hne q (List.mem_filter.1 hq').1⟩
    rw [dropStale_seq]
    simp only [hq, List.filter_append]
    rw [List.filter_cons_of_pos (by simpa using hpo.symm)]
    rfl
  check := fun h _ => h.edit (prepared_aim _)
  gate := fun {e} h => by rwa [gate_not_held (by rw [h.1]; decide)]
  held := fun {e} h _ => by
    rcases writeHeld_cases e with k | ⟨p, kind, hp, -, -, k⟩ <;> rw [k]
    · exact h
    · obtain ⟨t, b, hs⟩ := writeFault_seq .p ((e.nameOrder p).faultOf kind (some p) false none) (e.nameOrder p)
      refine Engine.Last.edit ?_ fun _ => rfl
      rwa [Engine.Last, hs]
  rest := fun {e} h => by rwa [Engine.Last, rest_stageState, rest_queue]
  lift := fun {e} h => by
    obtain ⟨b, hs⟩ := viewLift_seq e
    rwa [Engine.Last, hs]
  power := fun _ h => h
  found := fun h => h

/-- The order of an accepted WHEEL_CHANGE, and the composition wheel (R58). -/
def Engine.changeOrdered (x : Byte) (e : Engine) : Engine :=
  let e' := e.soleOrder (.wheelChange x.toNat) .wheelChange 800
  { e' with comp := { e'.comp with wheel := if x = 0 then e.comp.wheel else some x.toNat } }

theorem opWheelChange_ok {x : Byte} {e : Engine} (hx : x ≠ 255) (on : e.power.state ≠ .starting)
    (hf : e.faults.empty = true) (hst : e.seq.stageState = .empty) (hroom : e.seq.queue.length < 32) :
    Engine.opWheelChange x e = ([0x00, byteOf e.groupId], (e.changeOrdered x).wakeIfResting) := by
  have hr : e.room ≠ 0 := by unfold Engine.room; omega
  unfold Engine.opWheelChange Engine.changeOrdered
  simp only [hx, on, hf, hst, hr, if_false, Bool.not_true, ne_eq, not_true_eq_false, decide_false, Bool.or_self,
    Bool.false_eq_true]
  split <;> rfl

theorem changeOrdered_same (x : Byte) (e : Engine) : Same [.queue, .ids, .compWheel] e (e.changeOrdered x) := by
  intro p hp
  cases p
  case queue => exact absurd (by decide) hp
  case ids => exact absurd (by decide) hp
  case compWheel => exact absurd (by decide) hp
  all_goals simp [Piece.same, Engine.changeOrdered, Engine.soleOrder, Engine.openGroup, Engine.append]

theorem changeOrdered_last {x : Byte} {e : Engine} (hn : NumbersOk e.seq) (hst : e.seq.stageState = .empty) :
    (e.changeOrdered x).Last (e.seq.nextOrder, .wheelChange x.toNat, e.groupId, 800) := by
  refine ⟨hst, OrderName.noConfusion, e.seq.queue, _, rfl, rfl, fun p hp => Nat.ne_of_lt ?_⟩
  obtain ⟨-, hlt⟩ := hn
  exact hlt p (List.mem_append_left _ hp)

/-- Records that leave do not change what an order that is no LIFT is for. -/
theorem forget_aim {orders : List Order} {slots : List Nat} {o : Order} (h : o.kind.name ≠ .lift) :
    (o.forget orders slots).aim = o.aim := by
  have hrec : (o.unrecorded slots).aim = o.aim := by
    unfold Order.unrecorded
    split
    · split <;> rfl
    · rfl
  rw [forget_eq, ← hrec]
  have hk : (o.unrecorded slots).kind = o.kind := congrArg (fun a => a.2.1) hrec
  unfold Order.unreferred
  split
  · rename_i s hs
    rw [← hk, hs] at h
    exact absurd rfl h
  · rfl

theorem Engine.Last.removeRecords {a : Nat × OrderKind × Nat × Nat} {e : Engine} (h : e.Last a) (gone : Record → Bool) :
    (e.removeRecords gone).Last a := by
  obtain ⟨slots, hs | hs⟩ := removeRecords_seq gone e
  · refine h.map (g := Order.forget e.seq.queue slots) (by rw [hs]) (by rw [hs]) (forget_number _ _) fun p hp => ?_
    rw [forget_aim (by rw [show p.kind = a.2.1 from congrArg (fun b => b.2.1) hp]; exact h.2.1)]
    exact hp
  · rwa [Engine.Last, hs]

theorem knob_last {a : Nat × OrderKind × Nat × Nat} {e : Engine} {shift : VPos} (h : e.Last a) : (e.knob shift).Last a :=
  Engine.Last.removeRecords (e := { e with
    comp := { e.comp with vTarget := e.comp.vTarget + shift, relocateV := e.comp.relocateV + shift } }) h _

theorem wakeIfResting_last {a : Nat × OrderKind × Nat × Nat} {e : Engine} (h : e.Last a) : e.wakeIfResting.Last a := by
  have hhome : ∀ (d : Engine) (u : HomingUse) (r : Option Nat), (d.homeWheel u r).seq = d.seq := fun d u r => by
    unfold Engine.homeWheel; split <;> rfl
  have henergise : ∀ d : Engine, d.Last a → d.energise.Last a := fun d hd => by
    unfold Engine.energise
    simp only
    split
    · refine knob_last ?_
      exact hd
    · exact hd
  unfold Engine.wakeIfResting
  split
  · unfold Engine.startWake
    split
    · exact h
    · simp only
      rw [Engine.Last, hhome]
      exact henergise _ h
  · exact h

theorem wakeIfResting_wakes {e : Engine} (hp : e.power.state = .standby ∨ e.power.state = .sleep)
    (hr : e.power.softReset = none) : e.wakeIfResting.power.wake.isSome = true := by
  have hhome : ∀ (d : Engine) (u : HomingUse) (r : Option Nat), (d.homeWheel u r).power = d.power := fun d u r => by
    unfold Engine.homeWheel; split <;> rfl
  rw [Engine.wakeIfResting, if_pos ⟨hp, by rw [hr]; rfl⟩]
  unfold Engine.startWake
  split
  · assumption
  · simp only
    rw [hhome]
    have h := energise_same { e with
      power := { e.power with
        wake := some { carriage := .running, wheel := coverPart e.levels.closed, position := e.carriage.position, faults := [] }
        pendingEntry := none }
      display := e.display.light } .power (by decide)
    exact (congrArg (fun q : Power => q.wake.isSome) h :)

/-- What an accepted WHEEL_CHANGE does before settling. -/
theorem change_accepted {x : Byte} {e : Engine} (hx : x ≠ 255) (on : e.power.state ≠ .starting)
    (hf : e.faults.empty = true) (hst : e.seq.stageState = .empty) (hroom : e.seq.queue.length < 32)
    (hn : NumbersOk e.seq) : ∃ f : Engine, Engine.opWheelChange x e = ([0x00, byteOf e.groupId], f) ∧
      Same (.queue :: .ids :: .compWheel :: wakeParts) e f ∧
      (e.power.state = .run → Same [.queue, .ids, .compWheel] e f) ∧
      f.Last (e.seq.nextOrder, .wheelChange x.toNat, e.groupId, 800) ∧
      (e.power.state = .standby ∨ e.power.state = .sleep → e.power.softReset = none → f.power.wake.isSome = true) ∧
      f.seq.lastGroup = e.groupId ∧ f.comp.wheel = if x = 0 then e.comp.wheel else some x.toNat := by
  have hchange := changeOrdered_same x e
  have hwake := wakeIfResting_same (e.changeOrdered x)
  have hpower : (e.changeOrdered x).power = e.power := rfl
  refine ⟨_, opWheelChange_ok hx on hf hst hroom, (hchange.mono (by decide)).trans (hwake.mono (by decide)), fun hrun => ?_,
    wakeIfResting_last (changeOrdered_last hn hst), fun hp hr => wakeIfResting_wakes hp hr, ?_, ?_⟩
  · have hawake : ¬ (((e.changeOrdered x).power.state = .standby ∨ (e.changeOrdered x).power.state = .sleep) ∧
        (e.changeOrdered x).power.softReset.isNone = true) := fun k => by
      rw [hpower, hrun] at k
      exact k.1.elim PowerState.noConfusion PowerState.noConfusion
    rw [Engine.wakeIfResting, if_neg hawake]
    exact hchange
  · obtain ⟨hg, -⟩ := hwake .ids (by decide)
    exact hg
  · have hc := hwake .compWheel (by decide)
    exact hc

/-- Settles O23: an accepted change appends its order, which settling leaves at the end of the queue. -/
theorem wheelChangeRequest : Obligations.WheelChangeRequest := by
  unfold Obligations.WheelChangeRequest
  intro s x hears
  have hexec : exec (.wheelChange x) s = .next (s.on fun e =>
    (e.answer 0x05 true plainRefusal false (settled (Engine.opWheelChange x))).refresh) := rfl
  have refused : ∀ status : Status, (∀ y, Engine.opWheelChange x (s.withTx y) = refuse status (s.withTx y)) →
      ∃ t, exec (.wheelChange x) s = .next t ∧ t.answered 0x45 [status.byte] ∧
        Keeps (.openValues :: settleParts) s t := fun status hop => by
    obtain ⟨t, ht, hanswered, keeps, -⟩ := exec_refuses hexec hears hop
    exact ⟨t, ht, hanswered, keeps⟩
  refine ⟨fun hx => refused .malformed fun y => if_pos hx, fun hx hp => refused .busy fun y => ?_,
    fun hx hp hbusy => refused .busy fun y => ?_, fun hx hp hbusy hn hstage => ?_⟩
  · rw [Engine.opWheelChange, if_neg hx]
    exact if_pos hp
  · have hb : (!s.faults.empty || decide (s.seq.stageState ≠ .empty) || decide (s.room = 0)) = true := by
      rcases hbusy with h | h | h | h
      · simp [FaultRecord.empty, Option.isSome_iff_ne_none.2 h]
      · simp [FaultRecord.empty, Option.isSome_iff_ne_none.2 h]
      · simp [h]
      · have : s.room = 0 := by unfold Engine.room; omega
        simp [this]
    rw [Engine.opWheelChange, if_neg hx]
    exact (if_neg hp).trans (if_pos hb)
  · simp only [not_or, not_not, not_le] at hbusy
    obtain ⟨hfx, hfp, hst, hroom⟩ := hbusy
    obtain ⟨f, hf⟩ := Classical.skolem.1 fun y =>
      change_accepted (e := s.withTx y) hx hp ((faults_empty_iff _).2 ⟨hfx, hfp⟩) hst hroom hn
    obtain ⟨t, ht, hanswered, -, y, l, n, heq⟩ := exec_settled (payload := [0x00, byteOf s.groupId]) hexec hears
      (fun y => (hf y).1) fun y => (hf y).2.1
    obtain ⟨-, -, hrun, hlast, hwakes, hgroup, hwheel⟩ := hf y
    have hend := (settleKeeps_last _).settle hlast
    have hset := settle_same (f y)
    obtain ⟨hg, -⟩ := hset .ids (by decide)
    have hw : (f y).settle.comp.wheel = (f y).comp.wheel := hset .compWheel (by decide)
    have hwake := settle_wake (f y)
    generalize (f y).settle = d at *
    have hseq : t.seq = d.seq := by rw [heq, Engine.refresh_seq]
    have hcomp : t.comp = d.comp := by rw [heq, Engine.refresh_comp]
    have hpower : t.power = d.power := by rw [heq, Engine.refresh_power]
    refine ⟨t, ht, hanswered, by rw [hseq, hg]; exact hgroup, by rw [hcomp, hw]; exact hwheel, ?_, fun hrest hr => ?_,
      fun hpr => ?_⟩
    · obtain ⟨-, -, init, o, hq, ho, -⟩ := hend
      refine ⟨o, by rw [hseq, hq]; exact List.getLast?_concat, ?_⟩
      simp only [Order.aim, Prod.mk.injEq] at ho
      exact ho
    · rw [hpower, hwake]
      exact hwakes hrest hr
    · obtain ⟨t', ht', -, hkeeps, -⟩ := exec_settled (payload := [0x00, byteOf s.groupId]) hexec hears
        (fun y => (hf y).1) fun y => (hf y).2.2.1 hpr
      cases ht.symm.trans ht'
      exact ⟨hkeeps.1, hkeeps.2.mono (by decide)⟩

end Sys2Proof.Machine
end

section
set_option Elab.async false
namespace Sys2Proof.Machine

/-! ## SELF_TEST: the first steps of a test (R176) -/

/-- A step that changes nothing of the test ends the test's advance. -/
theorem advanceTest_stops {e f : Engine} {t : SelfTest} (fuel : Nat) (ht : e.selfTest = some t) (hf : e.testStep t = f)
    (hs : f.selfTest = some t) : advanceTest (fuel + 1) e = f := by
  simp only [advanceTest, ht, hf, hs, if_true]

/-- A step that changes the test is followed by the next. -/
theorem advanceTest_goes {e f : Engine} {t : SelfTest} (fuel : Nat) (ht : e.selfTest = some t) (hf : e.testStep t = f)
    (hs : f.selfTest ≠ some t) : advanceTest (fuel + 1) e = advanceTest fuel f := by
  simp only [advanceTest, ht, hf, if_neg hs]

/-- The part with another lift, carriage and test. -/
def Engine.tested (l : Lift) (c : Carriage) (t : SelfTest) (e : Engine) : Engine :=
  { e with lift := l, carriage := c, selfTest := some t }

theorem tested_same (l : Lift) (c : Carriage) (t : SelfTest) (e : Engine) :
    Same [.lift, .carriage, .selfTest] e (e.tested l c t) := by
  intro p hp
  cases p
  case lift => exact absurd (by decide) hp
  case carriage => exact absurd (by decide) hp
  case selfTest => exact absurd (by decide) hp
  all_goals simp [Piece.same, Engine.tested]

theorem liftTo_lift (p : LiftTarget) (use : LiftUse) (e : Engine) :
    e.liftTo p use = { e with lift := (e.liftTo p use).lift } := by
  unfold Engine.liftTo
  split
  · split <;> rfl
  · split
    · split <;> rfl
    · rfl
  · rfl

theorem mayTravel_congr {e f : Engine} (hp : f.platen = e.platen) (hh : f.hammer = e.hammer) : f.mayTravel = e.mayTravel := by
  simp only [Engine.mayTravel, Engine.hammerQuiet, hp, hh]

/-- Step 2 begins with a homing of the carriage once it is free. -/
theorem advanceTest_two {e : Engine} {t : SelfTest} (fuel : Nat) (ht : e.selfTest = some t) (hstep : t.step = 2)
    (hsub : t.sub = 0) (quiet : e.quiet) : ∃ c n, advanceTest (fuel + 2) e = e.tested e.lift c { t with sub := n } ∧
      (e.carriage.state = .idle → c.state = .homing) := by
  have hfirst : e.testStep t = if (!e.carriage.busy && e.mayTravel) = true then
      (e.homeCarriage .selfTest (.to 1599)).editTest fun t => { t with sub := 1 } else e := by
    simp only [Engine.testStep, hstep, hsub]
  by_cases hb : e.carriage.busy = true
  · refine ⟨e.carriage, t.sub, ?_, fun hidle => absurd hb (by simp [Carriage.busy, hidle])⟩
    rw [advanceTest_stops (fuel + 1) ht hfirst (by simp [hb, ht])]
    simp only [hb, Bool.not_true, Bool.false_and, Bool.false_eq_true, if_false, Engine.tested, ← ht]
  · have hgo : (!e.carriage.busy && e.mayTravel) = true := by simp [hb, mayTravel_of_quiet quiet]
    rw [if_pos hgo] at hfirst
    let f : Engine := (e.homeCarriage .selfTest (.to 1599)).editTest fun t => { t with sub := 1 }
    have hft : f.selfTest = some { t with sub := 1 } := congrArg (Option.map _) ht
    have hne : f.selfTest ≠ some t := fun h => by
      have := congrArg SelfTest.sub (Option.some.inj (hft.symm.trans h))
      rw [hsub] at this
      cases this
    have hsecond : f.testStep { t with sub := 1 } = f := by
      simp only [Engine.testStep, hstep]
      exact if_neg CarriageState.noConfusion
    refine ⟨f.carriage, 1, ?_, fun _ => rfl⟩
    rw [advanceTest_goes (fuel + 1) ht hfirst hne, advanceTest_stops fuel hft hsecond hft]
    simp only [f, Engine.editTest, Engine.homeCarriage, Engine.tested, ht, Option.map_some]

/-- A test moves the lift to VIEW first, and with the lift there homes the carriage. -/
theorem advanceTest_first {e : Engine} {t : SelfTest} (fuel : Nat) (ht : e.selfTest = some t) (hstep : t.step = 1)
    (quiet : e.quiet) : ∃ l c k n, advanceTest (fuel + 3) e = e.tested l c { t with step := k, sub := n } ∧
      (∀ p, e.lift.state = .held p → p ≠ .view → l.state = .moving ∧ l.target = .view) ∧
      (e.lift.state = .held .view → e.carriage.state = .idle → c.state = .homing) := by
  have hlift := liftTo_lift .view .selfTest e
  have hstepped : e.testStep t = if (e.liftTo .view .selfTest).lift.at .view = true then
      (e.liftTo .view .selfTest).editTest (·.next) else e.liftTo .view .selfTest := by
    simp only [Engine.testStep, hstep, Engine.testLift, Engine.tryLift, mayTravel_of_quiet quiet, if_true]
  have haway : ∀ p, e.lift.state = .held p → p ≠ .view →
      (e.liftTo .view .selfTest).lift.state = .moving ∧ (e.liftTo .view .selfTest).lift.target = .view := fun p hp hne => by
    simp only [Engine.liftTo, hp, hne, if_false, and_self]
  have hthere : e.lift.state = .held .view → (e.liftTo .view .selfTest).lift.at .view = true := fun h => by
    rw [liftTo_still .selfTest (.inr h)]
    simp [Lift.at, h]
  generalize e.liftTo .view .selfTest = f at *
  have hft : f.selfTest = some t := by rw [hlift]; exact ht
  by_cases hat : f.lift.at .view = true
  · rw [if_pos hat] at hstepped
    have hnext : (f.editTest (·.next)).selfTest = some t.next := congrArg (Option.map _) hft
    have hne : (f.editTest (·.next)).selfTest ≠ some t := fun h => by
      have := congrArg SelfTest.step (Option.some.inj (hnext.symm.trans h))
      simp [SelfTest.next] at this
    have hquiet : (f.editTest (·.next)).quiet := by rw [hlift]; exact quiet
    obtain ⟨c, n, htwo, hhome⟩ := advanceTest_two fuel hnext (by simp [SelfTest.next, hstep]) rfl hquiet
    refine ⟨f.lift, c, 2, n, ?_, haway, fun hheld hidle => hhome (by rw [hlift]; exact hidle)⟩
    rw [advanceTest_goes (fuel + 2) ht hstepped hne, htwo]
    simp only [Engine.tested, Engine.editTest, SelfTest.next, hstep]
    rw [hlift]
  · rw [if_neg hat] at hstepped
    refine ⟨f.lift, f.carriage, t.step, t.sub, ?_, haway, fun hheld _ => absurd (hthere hheld) hat⟩
    rw [advanceTest_stops (fuel + 2) ht hstepped hft, hlift]
    simp only [Engine.tested, ← ht]

/-- While a test runs no lift move of a fault or of the view timer begins. -/
theorem settleKeeps_tested (t : SelfTest) (l : Lift) : SettleKeeps fun e => e.selfTest = some t ∧ e.lift = l where
  drain := fun {e} ⟨ht, hl⟩ => ⟨(drain_same e .selfTest (by decide) : _ = _).trans ht,
    (drain_same e .lift (by decide) : _ = _).trans hl⟩
  rouse := fun {e} ⟨ht, hl⟩ => ⟨(rouse_same e .selfTest (by decide) : _ = _).trans ht,
    (rouse_same e .lift (by decide) : _ = _).trans hl⟩
  stale := fun {e o} ⟨ht, hl⟩ _ _ => ⟨(dropStale_same o e .selfTest (by decide) : _ = _).trans ht,
    (dropStale_same o e .lift (by decide) : _ = _).trans hl⟩
  check := fun h _ => h
  gate := fun {e} ⟨ht, hl⟩ => ⟨(gate_same e .selfTest (by decide) : _ = _).trans ht,
    (gate_same e .lift (by decide) : _ = _).trans hl⟩
  held := fun {e} ⟨ht, hl⟩ _ => ⟨(writeHeld_same e .selfTest (by decide) : _ = _).trans ht,
    (writeHeld_same e .lift (by decide) : _ = _).trans hl⟩
  rest := fun {e} ⟨ht, hl⟩ => ⟨(rest_same e .selfTest (by decide) : _ = _).trans ht,
    (rest_same e .lift (by decide) : _ = _).trans hl⟩
  lift := fun {e} ⟨ht, hl⟩ => by
    have : ¬ (e.seq.liftToView && e.mayTravel && decide (e.lift.state ≠ .moving) && e.selfTest.isNone) = true := by
      simp [ht]
    rw [Engine.viewLift, if_neg this]
    exact ⟨ht, hl⟩
  power := fun _ h => h
  found := fun h => h

/-- The test that begins, with the place and the wheel it goes back to (R55, R176). -/
def Engine.testBegun (e : Engine) : SelfTest :=
  { group := e.groupId, step := 1, sub := 0, failed := [], wheel := e.wheel.mounted
    position := if e.carriage.state = .lost then none else some e.carriage.position }

/-- The part as it takes a test. -/
def Engine.testTaken (e : Engine) : Engine :=
  { e with seq := { e.seq with lastGroup := e.groupId, liftToView := false }, selfTest := some e.testBegun }

theorem testTaken_same (e : Engine) : Same [.queue, .ids, .selfTest] e e.testTaken := by
  intro p hp
  cases p
  case queue => exact absurd (by decide) hp
  case ids => exact absurd (by decide) hp
  case selfTest => exact absurd (by decide) hp
  all_goals simp [Piece.same, Engine.testTaken]

theorem mayTest_iff (e : Engine) : e.mayTest = true ↔ e.power.state = .run ∧ e.selfTest = none ∧ e.comp.keys = [] ∧
    e.seq.queue = [] ∧ e.seq.stageState = .empty ∧ e.faults.x = none ∧ e.faults.p = none ∧
    (e.seq.state = .idle ∨ e.seq.state = .paused) := by
  simp [Engine.mayTest, faults_empty_iff, and_assoc]

/-- What a test that is taken does before settling. -/
theorem test_accepted {e : Engine} (may : e.mayTest = true) (idle : e.idleChannels) (quiet : e.quiet) :
    ∃ f : Engine, Engine.opSelfTest e = ([0x00, byteOf e.groupId], f) ∧
      Same [.selfTest, .ids, .carriage, .queue, .lift] e f ∧ f.seq.lastGroup = e.groupId ∧
      (∃ x, f.selfTest = some x ∧ x.group = e.groupId ∧ x.failed = [] ∧ x.wheel = e.wheel.mounted ∧
        x.position = (if e.carriage.state = .lost then none else some e.carriage.position)) ∧
      (∀ p, e.lift.state = .held p → p ≠ .view → f.lift.state = .moving ∧ f.lift.target = .view) ∧
      (e.lift.state = .held .view → e.carriage.state = .idle → f.carriage.state = .homing) := by
  obtain ⟨hx, -, hrec, hsoft, hent, hup, hoff⟩ := idle
  obtain ⟨l, c, k, n, hadv, haway, hthere⟩ := advanceTest_first (e := e.testTaken) (t := e.testBegun) 21 rfl rfl quiet
  have hproceed : e.testTaken.proceed = advanceTest 24 e.testTaken := by
    have hview : e.testTaken.viewLift = e.testTaken := viewLift_not_waiting rfl
    have horder : e.testTaken.advanceOrder = e.testTaken := advanceOrder_idle (e := e.testTaken) hx
    have hup' : ¬ (advanceTest 24 e.testTaken).power.startUp = some .lift := by
      rw [hadv]; exact fun h => by cases hup.symm.trans h
    have hoff' : ¬ (advanceTest 24 e.testTaken).power.deepOff = some .lifting := by
      rw [hadv]; exact fun h => by cases hoff.symm.trans h
    rw [Engine.proceed, hview, horder]
    simp only [Engine.advanceStartLift, Engine.advanceDeepOff]
    rw [advanceRecovery_none (e := advanceTest 24 e.testTaken) (by rw [hadv]; exact hrec),
      advanceRehoming_none (e := advanceTest 24 e.testTaken) (by rw [hadv]; exact hsoft),
      advanceEntry_none (e := advanceTest 24 e.testTaken) (by rw [hadv]; exact hent), if_neg hup', if_neg hoff']
  refine ⟨e.testTaken.tested l c { e.testBegun with step := k, sub := n }, ?_, ((testTaken_same e).mono (by decide)).trans ((tested_same _ _ _ _).mono (by decide)),
    rfl, ⟨_, rfl, rfl, rfl, rfl, rfl⟩, haway, hthere⟩
  rw [← hadv, ← hproceed, Engine.opSelfTest, if_pos may]
  rfl

/-- Settles O34: the test's steps run up to the first that waits, and settling starts no lift move while a test runs. -/
theorem selfTestRequest : Obligations.SelfTestRequest := by
  unfold Obligations.SelfTestRequest
  intro s hears
  have hexec : exec .selfTest s = .next (s.on fun e =>
    (e.answer 0x10 true plainRefusal false (settled Engine.opSelfTest)).refresh) := rfl
  refine ⟨fun hmay => ?_, fun hmay idle quiet => ?_⟩
  · exact exec_refuses (status := .busy) hexec hears fun y => if_neg fun h => hmay ((mayTest_iff (s.withTx y)).1 h)
  · obtain ⟨f, hf⟩ := Classical.skolem.1 fun y =>
      test_accepted (e := s.withTx y) ((mayTest_iff (s.withTx y)).2 hmay) idle quiet
    obtain ⟨t, ht, hanswered, keeps, y, l, n, heq⟩ := exec_settled (payload := [0x00, byteOf s.groupId]) hexec hears
      (fun y => (hf y).1) fun y => (hf y).2.1
    obtain ⟨-, -, hgroup, ⟨x, hx, hfields⟩, haway, hthere⟩ := hf y
    obtain ⟨hset, hlift⟩ := (settleKeeps_tested x (f y).lift).settle ⟨hx, rfl⟩
    obtain ⟨hids, -⟩ := settle_same (f y) .ids (by decide)
    have hcar : (f y).settle.carriage = (f y).carriage := settle_same (f y) .carriage (by decide)
    generalize (f y).settle = d at *
    have hseq : t.seq = d.seq := by rw [heq, Engine.refresh_seq]
    have htest : t.selfTest = d.selfTest := by rw [heq, Engine.refresh_selfTest]
    have hl : t.lift = d.lift := by rw [heq, Engine.refresh_lift]
    have hc : t.carriage = d.carriage := by rw [heq, Engine.refresh_carriage]
    refine ⟨t, ht, hanswered, by rw [hseq, hids]; exact hgroup, ⟨x, htest.trans hset, hfields⟩, ?_, ?_,
      keeps.1, keeps.2.mono (by decide)⟩
    · rw [hl, hlift]
      exact haway
    · rw [hc, hcar]
      exact hthere

end Sys2Proof.Machine
end

section
set_option Elab.async false
namespace Sys2Proof.Machine

/-! ## The checks of an order (R67) -/

theorem wheelKnown_iff (e : Engine) :
    e.wheelKnown = e.slots.any fun w => decide (w.state = .ready) && decide (e.wheel.mounted = some w.id) := by
  unfold Engine.wheelKnown readySlot
  cases e.wheel.mounted with
  | none => simp
  | some id =>
    rw [Option.bind_some, Bool.eq_iff_iff, List.find?_isSome, List.any_eq_true]
    simp [eq_comm (a := id)]

/-- The result of the checks when the first that fails is known. -/
def Check.of : Option FaultKind → Check
  | none => .passes
  | some k => .fails k

/-- The first failing check of a list of checks. -/
theorem firstFailing_cons (b : Bool) (k : FaultKind) (l : List (Bool × FaultKind)) :
    Check.of ((((b, k) :: l).find? (·.1)).map (·.2)) =
      if b = true then .fails k else Check.of ((l.find? (·.1)).map (·.2)) := by
  cases b <;> rfl

theorem firstFailing_nil : Check.of ((([] : List (Bool × FaultKind)).find? (·.1)).map (·.2)) = .passes := rfl

/-- The checks give what the first that fails says. -/
theorem check_eq_failure {e : Engine} {o : Order} (h : e.lasts o) : e.check o = Check.of (e.failure o) := by
  have hknown := wheelKnown_iff e
  cases hk : o.kind with
  | strike f =>
    have hpetals : (!f.petalsPresent) = if f.glyph.isSome = true then f.petal.isNone else f.underlinePetal.isNone := by
      unfold StrikeFields.petalsPresent
      split <;> simp
    simp only [Engine.check, Engine.failure, Engine.liftRecord, hk, OrderKind.name, ← hknown, hpetals, firstFailing_cons,
      firstFailing_nil, reduceCtorEq, ne_eq, not_false_eq_true, decide_true, decide_false, Bool.true_and, Bool.false_and,
      Bool.true_or, Bool.false_eq_true, if_false]
  | lift r =>
    obtain ⟨q, hq⟩ := Option.isSome_iff_exists.1 (h (by rw [hk]; rfl))
    cases r with
    | record k =>
      have hr : e.memory.record k = some q := by
        simp only [Engine.liftRecord, hk] at hq
        exact hq
      simp only [Engine.check, Engine.failure, hq, hr, hk, OrderKind.name, ← hknown, firstFailing_cons, firstFailing_nil,
        reduceCtorEq, ne_eq, not_false_eq_true, decide_true, decide_false, decide_eq_true_eq, Bool.true_and,
        Bool.false_and, Bool.or_true, Bool.false_eq_true, if_false]
    | bound n => simp [Engine.liftRecord, hk] at hq
    | emptied n => simp [Engine.liftRecord, hk] at hq
    | gone => simp [Engine.liftRecord, hk] at hq
  | wheelChange x => simp [Engine.check, Engine.failure, Engine.liftRecord, hk, OrderKind.name, Check.of]
  | move | ret n | feed n | paperLoad | paperEject =>
    simp only [Engine.check, Engine.failure, Engine.liftRecord, hk, OrderKind.name, firstFailing_cons, firstFailing_nil,
      reduceCtorEq, ne_eq, not_false_eq_true, decide_true, decide_false, Bool.true_and, Bool.false_and, Bool.or_self,
      Bool.false_eq_true, if_false]
    cases e.levels.closed <;> rfl

/-- The checks see the kind of the order, and of the part the sensors, the slots, the wheel and the memory. -/
theorem failure_congr {e f : Engine} {o p : Order} (hk : p.kind = o.kind) (hlevels : f.levels = e.levels)
    (hslots : f.slots = e.slots) (hwheel : f.wheel.mounted = e.wheel.mounted) (hmemory : f.memory = e.memory) :
    f.failure p = e.failure o := by
  simp only [Engine.failure, Engine.liftRecord, hk, hlevels, hslots, hwheel, hmemory]

/-! ## The order at the head while none executes (R65 to R69) -/

/-- An order waits at the head of the queue, and no other order has its number. -/
def Engine.Fronted (o : Order) (e : Engine) : Prop :=
  o.state ≠ .executing ∧ ∃ rest, e.seq.queue = o :: rest ∧ ∀ p ∈ rest ++ e.seq.stage, p.number ≠ o.number

theorem Engine.Fronted.pOrder {o : Order} {e : Engine} (h : e.Fronted o) : e.pOrder = some o := by
  obtain ⟨hx, rest, hq, -⟩ := h
  simp only [Engine.pOrder, hq, if_neg hx]

theorem Engine.Fronted.executing {o : Order} {e : Engine} (h : e.Fronted o) : e.executing = none := by
  obtain ⟨hx, rest, hq, -⟩ := h
  simp only [Engine.executing, hq, if_neg hx]

theorem Engine.Fronted.of_append {o : Order} {e f : Engine} (h : e.Fronted o)
    (heq : f.seq.queue ++ f.seq.stage = e.seq.queue ++ e.seq.stage) (hne : f.seq.queue ≠ []) : f.Fronted o := by
  obtain ⟨hx, rest, hq, hnum⟩ := h
  rw [hq] at heq
  cases hf : f.seq.queue with
  | nil => exact absurd hf hne
  | cons p more =>
    rw [hf, List.cons_append, List.cons_append, List.cons.injEq] at heq
    obtain ⟨rfl, heq⟩ := heq
    exact ⟨hx, more, hf, heq ▸ hnum⟩

theorem Engine.Fronted.drain {o : Order} {e : Engine} (h : e.Fronted o) : e.drain.Fronted o := by
  refine h.of_append (drain_append e) ?_
  obtain ⟨k, hq, -⟩ := drain_orders e
  obtain ⟨-, rest, hr, -⟩ := h
  rw [hq, hr]
  exact List.cons_ne_nil _ _

theorem Engine.Fronted.gate {o : Order} {e : Engine} (h : e.Fronted o) : e.gate.Fronted o := by
  rwa [Engine.Fronted, gate_queue, gate_stage]

/-- A change of the order at the head that keeps its number. -/
theorem Engine.Fronted.edit {o : Order} {e : Engine} (h : e.Fronted o) {f : Order → Order}
    (hn : (f o).number = o.number) (hs : (f o).state ≠ .executing) : (e.editOrder o.number f).Fronted (f o) := by
  obtain ⟨-, rest, hq, hne⟩ := h
  have hrest : (rest.map fun p => if p.number = o.number then f p else p) = rest :=
    (List.map_congr_left fun p hp => if_neg (hne p (List.mem_append_left _ hp))).trans (List.map_id rest)
  refine ⟨hs, rest, ?_, fun p hp => (hne p hp).trans_eq hn.symm⟩
  simp only [Engine.editOrder, hq, List.map_cons, if_true, hrest]

/-- The prepare stage prepares the order at the head by its checks. -/
theorem prepare_front {o : Order} {e : Engine} (h : e.Fronted o) (hs : e.seq.state ≠ .idle) (hp : e.prepares o = true)
    (hl : e.lasts o) : e.prepare = e.drain.editOrder o.number (·.prepared (Check.of (e.failure o))) := by
  have hsame := drain_same e
  have hmemory : e.drain.memory = e.memory := hsame .memory (by decide)
  have hrouse : e.drain.rouse = e.drain := rouse_awake (by rwa [drain_state])
  have hrec : e.drain.seq.recovery = e.seq.recovery := hsame .recovery (by decide)
  have hprep : e.drain.prepares o = true := by
    simp only [Engine.prepares, drain_state, hrec]
    exact hp
  have hrecord : e.drain.liftRecord o = e.liftRecord o := by simp only [Engine.liftRecord, hmemory]
  have hcheck : e.drain.check o = Check.of (e.failure o) := by
    rw [check_eq_failure fun hk => by rw [hrecord]; exact hl hk, failure_congr (e := e) rfl (hsame .levels (by decide))
      (hsame .slots (by decide)) (congrArg Wheel.mounted (hsame.wheel) :) hmemory]
  simp only [Engine.prepare, prepareLoop, hrouse, h.drain.pOrder, hprep, if_true, hcheck]
  cases e.failure o <;> rfl

/-- Behind the prepare stage nothing is left to settle in the queue but a held failure, the lift and power control. -/
theorem settle_from {e f : Engine} (hf : e.gate.prepare.heldNow = f) (h : f.seq.state = .running → f.seq.queue ≠ []) :
    (∃ b, e.settle.seq = { f.seq with liftToView := b }) ∧ e.settle.faults = f.faults ∧
      e.settle.link.tx = f.link.tx ∧ e.settle.link.notices = f.link.notices := by
  have hrest : f.rest = f := if_neg fun k => h k.1 k.2
  obtain ⟨b, hb⟩ := viewLift_seq f
  have hview := viewLift_same f
  obtain ⟨q, hq, -⟩ := dropEntry_eq f.viewLift
  obtain ⟨r, hr, -⟩ := standbyUpdate_eq f.viewLift.dropEntry
  have hsettle : e.settle = { f.viewLift.dropEntry with
      power := r, wheel := { f.viewLift.dropEntry.wheel with found := f.viewLift.dropEntry.wheel.mounted } } := by
    simp only [Engine.settle, hf, hrest]
    rw [hr]
  rw [hsettle, hq]
  obtain ⟨-, tx, notices⟩ := hview .outgoing (by decide)
  exact ⟨⟨b, hb⟩, hview .faults (by decide), tx, notices⟩

theorem heldNow_none {e : Engine} {o : Order} (hp : e.pOrder = some o) (hh : o.held = none ∨ o.heldWritten = true) :
    e.heldNow = e := by
  have hw : e.writeHeld = e := by
    rcases hh with hh | hh
    · simp only [Engine.writeHeld, hp, hh]
    · unfold Engine.writeHeld
      rw [hp]
      simp only
      split
      · rfl
      · rw [if_pos hh]
  simp only [Engine.heldNow, hw, ite_self]

/-- The part with the order at the head prepared by its checks: PREPARED, or with the failure that it holds. -/
def Engine.frontChecked (o : Order) (e : Engine) : Engine :=
  e.gate.drain.editOrder o.number (·.prepared (Check.of (e.failure o)))

theorem frontChecked_fronted {o : Order} {e : Engine} (h : e.Fronted o) :
    (e.frontChecked o).Fronted (o.prepared (Check.of (e.failure o))) :=
  h.gate.drain.edit (prepared_number _ _) (prepared_state h.1)

theorem frontChecked_same (o : Order) (e : Engine) : Same [.queue] e (e.frontChecked o) :=
  (gate_same e).trans ((drain_same _).trans (editOrder_same _ _ _))

theorem frontChecked_state (o : Order) (e : Engine) : (e.frontChecked o).seq.state = e.seq.state :=
  (drain_state _).trans (gate_state e)

theorem prepare_frontChecked {o : Order} {e : Engine} (h : e.Fronted o) (hs : e.seq.state ≠ .idle) (hp : e.prepares o = true)
    (hl : e.lasts o) : e.gate.prepare = e.frontChecked o := by
  have hsame := gate_same e
  have hmemory : e.gate.memory = e.memory := hsame .memory (by decide)
  have hrecord : e.gate.liftRecord o = e.liftRecord o := by simp only [Engine.liftRecord, hmemory]
  have hrec : e.gate.seq.recovery = e.seq.recovery := hsame .recovery (by decide)
  rw [prepare_front h.gate (by rwa [gate_state]) (by simpa only [Engine.prepares, gate_state, hrec] using hp)
    (fun hk => by rw [hrecord]; exact hl hk), failure_congr (e := e) rfl (hsame .levels (by decide))
    (hsame .slots (by decide)) (congrArg Wheel.mounted (hsame.wheel) :) hmemory]
  rfl

/-- The order at the head passes its checks, or has failed them before: it is prepared, or fails as it did, and no fault is
written. -/
theorem settle_front_quiet {o : Order} {e : Engine} (h : e.Fronted o) (hs : e.seq.state ≠ .idle)
    (hp : e.prepares o = true) (hl : e.lasts o)
    (hq : (o.prepared (Check.of (e.failure o))).held = none ∨ (o.prepared (Check.of (e.failure o))).heldWritten = true) :
    e.settle.seq.queue.head? = some (o.prepared (Check.of (e.failure o))) ∧ e.settle.seq.state = e.seq.state ∧
      e.settle.faults = e.faults := by
  have front := frontChecked_fronted h
  have hheld : e.gate.prepare.heldNow = e.frontChecked o := by
    rw [prepare_frontChecked h hs hp hl, heldNow_none front.pOrder hq]
  obtain ⟨-, rest, hqueue, -⟩ := front
  obtain ⟨⟨b, hseq⟩, hfaults, -⟩ := settle_from hheld fun _ => by rw [hqueue]; exact List.cons_ne_nil _ _
  rw [hseq, hfaults]
  exact ⟨by rw [hqueue]; rfl, frontChecked_state o e, frontChecked_same o e .faults (by decide)⟩

/-- What a fault written to the P slot leaves there. -/
theorem writeFault_p (new : FaultSlot) (e : Engine) :
    (e.writeFault .p new).faults.x = e.faults.x ∧ (e.writeFault .p new).faults.p = some (putFault new e.faults.p).1 := by
  have hb : ∀ (k : FaultKind) (d : Engine), (d.becomeFaulted k).faults = d.faults := fun k d =>
    becomeFaulted_same k d .faults (by decide)
  unfold Engine.writeFault
  simp only
  split <;> simp [hb]

/-- The notice of a fault that is written to the P slot (R165). -/
theorem writeFault_p_notices {new : FaultSlot} {e : Engine} (on : e.power.state ≠ .deepOff) (htx : e.link.tx ≠ none) :
    (e.writeFault .p new).link.notices = if (putFault new e.faults.p).2 = true then
      takeNotice ((putFault new e.faults.p).1.notice .p new.kind) e.link.notices else e.link.notices := by
  have hb : ∀ (k : FaultKind) (d : Engine), (d.becomeFaulted k).link = d.link ∧ (d.becomeFaulted k).power = d.power :=
    fun k d => by
      unfold Engine.becomeFaulted
      simp only
      split
      · exact ⟨rfl, rfl⟩
      · split
        · split <;> exact ⟨rfl, rfl⟩
        · exact ⟨rfl, rfl⟩
  unfold Engine.writeFault
  simp only
  split
  · rw [offer_link (by rw [(hb _ _).2]; exact on), (hb _ _).1, Link.noticed_busy _ htx]
  · rw [(hb _ _).1]

/-- The part with the failure of the order at the head in the P slot. -/
def Engine.frontFailed (o : Order) (k : FaultKind) (e : Engine) : Engine :=
  let d := e.frontChecked o
  (d.nameOrder o).writeFault .p ((d.nameOrder o).faultOf k (some o) false none)

/-- The order at the head fails its checks anew: its failure goes to the P slot. -/
theorem settle_front_fails {o : Order} {e : Engine} {k : FaultKind} (h : e.Fronted o) (hs : e.seq.state ≠ .idle)
    (hp : e.prepares o = true) (hl : e.lasts o) (hk : e.failure o = some k) (hne : o.held ≠ some k) :
    e.settle.seq.queue.head? = some { o with state := .queued, held := some k, heldWritten := true } ∧
    e.settle.seq.state = (if e.seq.state = .stopped then .stopped else .faulted) ∧
    e.settle.faults = (e.frontFailed o k).faults ∧ e.settle.link.tx = (e.frontFailed o k).link.tx ∧
    e.settle.link.notices = (e.frontFailed o k).link.notices := by
  have front := frontChecked_fronted h
  have hprep : o.prepared (Check.of (e.failure o)) = { o with state := .queued, held := some k, heldWritten := false } := by
    rw [hk]
    exact if_neg hne
  rw [hprep] at front
  have hwritten : (e.frontChecked o).writeHeld = (e.frontFailed o k).editOrder o.number
      fun o => { o with heldWritten := true } := by
    unfold Engine.writeHeld
    rw [front.pOrder]
    simp only [Bool.false_eq_true, if_false]
    rfl
  have hheld : e.gate.prepare.heldNow = (e.frontFailed o k).editOrder o.number fun o => { o with heldWritten := true } := by
    rw [prepare_frontChecked h hs hp hl, Engine.heldNow, front.executing, hwritten]
    rfl
  obtain ⟨t, b, hseq⟩ := writeFault_seq .p (((e.frontChecked o).nameOrder o).faultOf k (some o) false none)
    ((e.frontChecked o).nameOrder o)
  have hfailed : (e.frontFailed o k).Fronted { o with state := .queued, held := some k, heldWritten := false } := by
    rwa [Engine.Fronted, Engine.frontFailed, hseq]
  have hstate : (e.frontFailed o k).seq.state = if e.seq.state = .stopped then .stopped else .faulted := by
    rw [Engine.frontFailed, hseq, ← frontChecked_state o e]
    rfl
  have hdone := hfailed.edit (f := fun o => { o with heldWritten := true }) rfl OrderState.noConfusion
  obtain ⟨-, rest, hqueue, -⟩ := hdone
  obtain ⟨⟨b, hsettled⟩, hfaults, htx, hnotices⟩ := settle_from hheld fun _ => by
    rw [hqueue]
    exact List.cons_ne_nil _ _
  rw [hsettled, hfaults, htx, hnotices]
  exact ⟨by rw [hqueue]; rfl, hstate, rfl, rfl, rfl⟩

end Sys2Proof.Machine
end

section
set_option Elab.async false
namespace Sys2Proof.Machine

/-! ## RESUME (R169, R170) -/

/-- What RESUME sets out to recover (R170). -/
def Engine.recovers (e : Engine) : Recovery :=
  { carriage := e.carriage.state = .lost || (e.carriage.state = .homing && e.carriage.use = .resume)
    wheel := e.resumeHomes || e.wheel.resumed
    lift := e.lift.state = .unknown || (e.lift.state = .moving && e.lift.use = .resume) }

/-- The part with its faults cleared and its orders QUEUED again. -/
def Engine.takenUp (e : Engine) : Engine :=
  let d := e.clearFaults.stopWait
  { d with seq := { d.seq with
      queue := d.seq.queue.map (·.requeued), state := if d.seq.queue = [] then .idle else .running, recovery := e.recovers } }

/-- The part as RESUME's recovery begins. -/
def Engine.recovering (e : Engine) : Engine := if e.resumeHomes then e.takenUp.resumeWheel e.resumeRequired else e.takenUp

theorem resume_eq (e : Engine) : e.resume = e.recovering.proceed := rfl

theorem resumeWheel_same (r : Option Nat) (e : Engine) : Same [.wheel] e (e.resumeWheel r) :=
  .ite (homeWheel_same _ _ e) (withWheel_same _ e)

theorem homeWheel_seq (use : HomingUse) (r : Option Nat) (e : Engine) : (e.homeWheel use r).seq = e.seq := by
  unfold Engine.homeWheel
  split <;> rfl

theorem resumeWheel_seq (r : Option Nat) (e : Engine) : (e.resumeWheel r).seq = e.seq := by
  unfold Engine.resumeWheel
  split
  · exact homeWheel_seq _ _ _
  · rfl

theorem recovering_seq (e : Engine) : e.recovering.seq = e.takenUp.seq := by
  unfold Engine.recovering
  split
  · exact resumeWheel_seq _ _
  · rfl

theorem takenUp_same (e : Engine) : Same [.faults, .queue, .message, .hammer, .recovery] e e.takenUp := by
  have hcleared : Same [.faults, .queue, .message, .hammer, .recovery] e e.clearFaults.stopWait :=
    (clearFaults_same e).next (stopWait_same _)
  let q := e.clearFaults.stopWait.seq.queue
  have hqueue := withQueue_same (q.map (·.requeued)) e.clearFaults.stopWait
  have hstate := hqueue.trans (withSeqState_same (if q = [] then .idle else .running) _)
  exact (hcleared.trans (hstate.mono (by decide))).trans ((withRecovery_same e.recovers _).mono (by decide))

theorem recovering_same (e : Engine) : Same [.faults, .queue, .message, .hammer, .recovery, .wheel] e e.recovering :=
  .ite ((takenUp_same e).next (resumeWheel_same _ _)) ((takenUp_same e).mono (by decide))

theorem tryLift_seq (p : LiftTarget) (use : LiftUse) (e : Engine) : (e.tryLift p use).seq = e.seq := by
  unfold Engine.tryLift
  split
  · exact liftTo_seq _ _ _
  · rfl

theorem advanceResumeWheel_seq (e : Engine) : e.advanceResumeWheel.seq = e.seq := by
  unfold Engine.advanceResumeWheel
  split
  · split
    · exact homeWheel_seq _ _ _
    · rfl
  · rfl

/-- The carriage part of RESUME's recovery begins (R170). -/
def Engine.recoverCarriage (e : Engine) : Engine :=
  if e.seq.recovery.carriage && e.carriage.state = .lost && e.mayTravel then e.homeCarriage .resume .stay else e

/-- The lift part of RESUME's recovery begins, and may end (R170). -/
def Engine.recoverLift (e : Engine) : Engine :=
  if e.seq.recovery.lift then
    let d := e.tryLift .view .resume
    if d.lift.at .view then d.liftRecovered else d
  else e

theorem advanceRecovery_eq (e : Engine) : e.advanceRecovery = e.advanceResumeWheel.recoverCarriage.recoverLift := rfl

theorem recoverCarriage_same (e : Engine) : Same [.carriage] e e.recoverCarriage := .ite (homeCarriage_same _ _ e) (.refl _ e)

theorem recoverLift_same (e : Engine) : Same [.lift, .recovery] e e.recoverLift :=
  .ite ((tryLift_same _ _ e).next (.ite ((liftRecovered_same _).mono (by decide)) (.refl [.lift, .recovery] _))
    (zs := [.lift, .recovery])) (.refl _ e)

theorem recoverCarriage_seq (e : Engine) : e.recoverCarriage.seq = e.seq := by
  unfold Engine.recoverCarriage
  split <;> rfl

theorem recoverLift_seq (e : Engine) : ∃ r, e.recoverLift.seq = { e.seq with recovery := r } ∧
    r.wheel = e.seq.recovery.wheel := by
  unfold Engine.recoverLift
  split
  · simp only
    split
    · exact ⟨{ e.seq.recovery with lift := false }, by simp only [Engine.liftRecovered, tryLift_seq], rfl⟩
    · exact ⟨_, tryLift_seq _ _ _, rfl⟩
  · exact ⟨_, rfl, rfl⟩

/-- The homings and the lift move of a recovery change no order. -/
theorem advanceRecovery_seq (e : Engine) : ∃ r, e.advanceRecovery.seq = { e.seq with recovery := r } ∧
    r.wheel = e.seq.recovery.wheel := by
  obtain ⟨r, hr, hw⟩ := recoverLift_seq e.advanceResumeWheel.recoverCarriage
  rw [recoverCarriage_seq, advanceResumeWheel_seq] at hr hw
  exact ⟨r, hr, hw⟩

theorem takenUp_seq {e : Engine} (held : e.faults.empty = false) : e.takenUp.seq = { e.seq with
    queue := e.seq.queue.map (·.requeued), state := if e.seq.queue = [] then .idle else .running
    recovery := e.recovers, liftToView := false } := by
  simp only [Engine.takenUp, Engine.stopWait, Engine.clearFaults, held, Bool.and_false]

/-- With nothing else owning a motion, a RESUME that is taken goes as far as its recovery. -/
theorem resume_recovers {e : Engine} (held : e.faults.empty = false) (ht : e.selfTest = none)
    (hent : e.power.entering = none) (hsoft : e.power.softReset = none) (hup : e.power.startUp = none)
    (hoff : e.power.deepOff = none) : e.resume = e.recovering.advanceRecovery := by
  have hseq := recovering_seq e
  rw [takenUp_seq held] at hseq
  have hsame := recovering_same e
  have hview : e.recovering.viewLift = e.recovering := viewLift_not_waiting (by rw [hseq])
  have horder : e.recovering.advanceOrder = e.recovering := by
    refine advanceOrder_idle ?_
    simp only [Engine.executing, hseq]
    cases e.seq.queue <;> rfl
  have htest : e.recovering.selfTest = none := (hsame .selfTest (by decide) : _ = _).trans ht
  have hpower : Piece.power.same e e.recovering := hsame .power (by decide)
  have hrec := advanceRecovery_same e.recovering
  have hpower' : Piece.power.same e e.recovering.advanceRecovery := Piece.same_trans hpower (hrec .power (by decide))
  generalize hf : e.recovering.advanceRecovery = f at *
  have hs : f.power.softReset = none := (congrArg Power.softReset hpower' :).trans hsoft
  have hen : f.power.entering = none := (congrArg Power.entering hpower' :).trans hent
  have hu : ¬ f.power.startUp = some .lift := by
    rw [(congrArg Power.startUp hpower' :), hup]
    exact fun h => by cases h
  have ho : ¬ f.power.deepOff = some .lifting := by
    rw [(congrArg Power.deepOff hpower' :), hoff]
    exact fun h => by cases h
  rw [resume_eq, Engine.proceed, hview, horder, advanceTest_none 24 htest, hf, advanceRehoming_none hs, advanceEntry_none hen]
  simp only [Engine.advanceStartLift, if_neg hu, Engine.advanceDeepOff, if_neg ho]

section taken
variable {e f : Engine}

/-- What RESUME taken leaves, before settling: the orders, and what it does not touch. -/
theorem resume_orders (held : e.faults.empty = false) (hf : e.recovering.advanceRecovery = f) :
    (∃ r, f.seq = { e.seq with
      queue := e.seq.queue.map (·.requeued), state := if e.seq.queue = [] then .idle else .running
      recovery := r, liftToView := false } ∧ r.wheel = (e.resumeHomes || e.wheel.resumed)) ∧
    f.faults = {} ∧ f.hammer = { e.hammer with waitTimer := none } ∧
    Same [.faults, .queue, .message, .hammer, .recovery, .wheel, .carriage, .lift] e f := by
  subst hf
  have hrec := advanceRecovery_same e.recovering
  obtain ⟨r, hr, hw⟩ := advanceRecovery_seq e.recovering
  rw [recovering_seq, takenUp_seq held] at hr hw
  have hcore : e.recovering.faults = {} ∧ e.recovering.hammer = { e.hammer with waitTimer := none } := by
    unfold Engine.recovering
    split
    · have hwheel := resumeWheel_same e.resumeRequired e.takenUp
      exact ⟨(hwheel .faults (by decide) : _ = _), (hwheel .hammer (by decide) : _ = _)⟩
    · exact ⟨rfl, rfl⟩
  obtain ⟨hfaults, hhammer⟩ := hcore
  exact ⟨⟨r, hr, hw⟩, (hrec .faults (by decide) : _ = _).trans hfaults, (hrec .hammer (by decide) : _ = _).trans hhammer,
    ((recovering_same e).mono (by decide)).trans (hrec.mono (by decide))⟩

theorem quiet_recovering (quiet : e.quiet) : e.recovering.quiet := by
  have hsame := recovering_same e
  have hplaten : e.recovering.platen = e.platen := hsame .platen (by decide)
  have hhammer : e.recovering.hammer.state = e.hammer.state := by
    unfold Engine.recovering
    split
    · have h : (e.takenUp.resumeWheel e.resumeRequired).hammer = e.takenUp.hammer :=
        resumeWheel_same e.resumeRequired e.takenUp .hammer (by decide)
      rw [h]
      rfl
    · rfl
  rwa [Engine.quiet, hplaten, hhammer]

/-- The lost carriage is homed (R170). -/
theorem resume_carriage (held : e.faults.empty = false) (quiet : e.quiet) (hlost : e.carriage.state = .lost) :
    e.recovering.advanceRecovery.carriage.state = .homing := by
  have hseq := recovering_seq e
  rw [takenUp_seq held] at hseq
  have hcar : e.recovering.carriage = e.carriage := recovering_same e .carriage (by decide)
  have hwheel := advanceResumeWheel_same e.recovering
  have hplaten : e.recovering.advanceResumeWheel.platen = e.recovering.platen := hwheel .platen (by decide)
  have hhammer : e.recovering.advanceResumeWheel.hammer = e.recovering.hammer := hwheel .hammer (by decide)
  have hcar' : e.recovering.advanceResumeWheel.carriage = e.recovering.carriage := hwheel .carriage (by decide)
  have hgo : (e.recovering.advanceResumeWheel.seq.recovery.carriage &&
      decide (e.recovering.advanceResumeWheel.carriage.state = .lost) && e.recovering.advanceResumeWheel.mayTravel) = true := by
    rw [advanceResumeWheel_seq, hseq, hcar', hcar, mayTravel_congr hplaten hhammer,
      mayTravel_of_quiet (quiet_recovering quiet)]
    simp [Engine.recovers, hlost]
  have hlift : (e.recovering.advanceResumeWheel.recoverCarriage.recoverLift).carriage =
      e.recovering.advanceResumeWheel.recoverCarriage.carriage := recoverLift_same _ .carriage (by decide)
  rw [advanceRecovery_eq, hlift, Engine.recoverCarriage, if_pos hgo]
  rfl

/-- The unknown lift goes to VIEW (R170). -/
theorem resume_lift (held : e.faults.empty = false) (quiet : e.quiet) (hu : e.lift.state = .unknown) :
    (¬ e.readsView → e.recovering.advanceRecovery.lift.state = .moving ∧ e.recovering.advanceRecovery.lift.target = .view) ∧
    (e.readsView → e.recovering.advanceRecovery.lift.state = .held .view) := by
  have hseq := recovering_seq e
  rw [takenUp_seq held] at hseq
  have hfar : Same [.faults, .queue, .message, .hammer, .recovery, .wheel, .carriage] e
      e.recovering.advanceResumeWheel.recoverCarriage := ((recovering_same e).mono (by decide)).trans
    (((advanceResumeWheel_same _).mono (by decide)).trans ((recoverCarriage_same _).mono (by decide)))
  have hplaten : e.recovering.advanceResumeWheel.recoverCarriage.platen = e.recovering.platen :=
    ((advanceResumeWheel_same _).next (recoverCarriage_same _) (zs := [.wheel, .carriage])) .platen (by decide)
  have hhammer : e.recovering.advanceResumeWheel.recoverCarriage.hammer = e.recovering.hammer :=
    ((advanceResumeWheel_same _).next (recoverCarriage_same _) (zs := [.wheel, .carriage])) .hammer (by decide)
  have hmay := mayTravel_congr hplaten hhammer
  rw [mayTravel_of_quiet (quiet_recovering quiet)] at hmay
  have hrec : e.recovering.advanceResumeWheel.recoverCarriage.seq.recovery.lift = true := by
    rw [recoverCarriage_seq, advanceResumeWheel_seq, hseq]
    simp [Engine.recovers, hu]
  have hlift : e.recovering.advanceResumeWheel.recoverCarriage.lift = e.lift := hfar .lift (by decide)
  have hpins : e.recovering.advanceResumeWheel.recoverCarriage.pins = e.pins := hfar .pins (by decide)
  rw [advanceRecovery_eq]
  generalize e.recovering.advanceResumeWheel.recoverCarriage = d at *
  have hreads : d.pins.lift = some .view ↔ e.readsView := by rw [hpins]; exact readsView_iff e
  have hend : d.recoverLift.lift = (d.liftTo .view .resume).lift := by
    simp only [Engine.recoverLift, hrec, if_true, Engine.tryLift, hmay]
    split <;> rfl
  rw [hend]
  simp only [Engine.liftTo, hlift, hu, hreads]
  refine ⟨fun h => ?_, fun h => ?_⟩
  · rw [if_neg h]
    exact ⟨rfl, rfl⟩
  · rw [if_pos h, if_pos trivial]

theorem hammerQuiet_iff (e : Engine) : e.hammerQuiet = true ↔ ¬ (e.hammer.state = .on ∨ e.hammer.state = .rest) := by
  simp [Engine.hammerQuiet]

theorem advanceResumeWheel_again {h : Homing} (hw : e.wheel.homing = some h) (hp : h.phase = .waiting → e.hammerQuiet = false) :
    e.advanceResumeWheel = e := by
  simp only [Engine.advanceResumeWheel, hw]
  refine if_neg fun k => ?_
  obtain ⟨-, hwaiting, hgo⟩ := k
  rw [hp hwaiting, Bool.and_false] at hgo
  cases hgo

theorem recoverLift_wheel : e.recoverCarriage.recoverLift.wheel = e.wheel := by
  have hlift : ∀ d : Engine, d.recoverLift.wheel = d.wheel := fun d => by
    unfold Engine.recoverLift Engine.tryLift
    split
    · simp only
      split
      · rw [liftTo_lift]
        split <;> rfl
      · split <;> rfl
    · rfl
  rw [hlift]
  unfold Engine.recoverCarriage
  split <;> rfl

/-- The wheel is homed, at once or behind the pulse and its rest (R71, R170). -/
theorem resume_wheel (hh : e.resumeHomes = true) (hcl : e.levels.closed = true)
    (hf : e.recovering.advanceRecovery = f) :
    f.wheel.state = (if e.hammer.state = .on ∨ e.hammer.state = .rest then e.wheel.state else .homing) ∧
    f.wheel.homing = some ⟨.resume, e.resumeRequired,
      if e.hammer.state = .on ∨ e.hammer.state = .rest then .waiting else .search⟩ := by
  subst hf
  have hhammer : e.takenUp.hammerQuiet = e.hammerQuiet := rfl
  have hclosed : e.takenUp.levels.closed = true := hcl
  rw [Engine.recovering, if_pos hh, advanceRecovery_eq, recoverLift_wheel]
  by_cases hq : e.hammerQuiet = true
  · have hw : e.takenUp.resumeWheel e.resumeRequired = e.takenUp.homeWheel .resume e.resumeRequired := by
      rw [Engine.resumeWheel, hhammer, if_pos hq]
    rw [hw, if_neg ((hammerQuiet_iff e).1 hq), if_neg ((hammerQuiet_iff e).1 hq)]
    have hhome : (e.takenUp.homeWheel .resume e.resumeRequired).wheel.state = .homing ∧
        (e.takenUp.homeWheel .resume e.resumeRequired).wheel.homing = some ⟨.resume, e.resumeRequired, .search⟩ := by
      simp only [Engine.homeWheel, hclosed, if_true, and_self]
    rw [advanceResumeWheel_again hhome.2 HomingPhase.noConfusion]
    exact hhome
  · have hfires : e.hammer.state = .on ∨ e.hammer.state = .rest := not_not.1 fun h => hq ((hammerQuiet_iff e).2 h)
    have hw : (e.takenUp.resumeWheel e.resumeRequired).wheel.state = e.wheel.state ∧
        (e.takenUp.resumeWheel e.resumeRequired).wheel.homing = some ⟨.resume, e.resumeRequired, .waiting⟩ ∧
        (e.takenUp.resumeWheel e.resumeRequired).hammerQuiet = false := by
      rw [Engine.resumeWheel, hhammer, if_neg hq]
      exact ⟨rfl, rfl, Bool.eq_false_iff.2 hq⟩
    obtain ⟨hstate, hhoming, hloud⟩ := hw
    rw [advanceResumeWheel_again hhoming fun _ => hloud, if_pos hfires, if_pos hfires]
    exact ⟨hstate, hhoming⟩

theorem homeWheel_mounted (use : HomingUse) (r : Option Nat) (e : Engine) :
    (e.homeWheel use r).wheel.mounted = e.wheel.mounted := by
  unfold Engine.homeWheel
  split <;> rfl

/-- RESUME takes no wheel off. -/
theorem resume_mounted (e : Engine) : e.recovering.advanceRecovery.wheel.mounted = e.wheel.mounted := by
  have hadvance : ∀ d : Engine, d.advanceResumeWheel.wheel.mounted = d.wheel.mounted := fun d => by
    unfold Engine.advanceResumeWheel
    split
    · split
      · exact homeWheel_mounted _ _ _
      · rfl
    · rfl
  rw [advanceRecovery_eq, recoverLift_wheel, hadvance]
  unfold Engine.recovering Engine.resumeWheel
  split
  · split
    · exact homeWheel_mounted _ _ _
    · rfl
  · rfl

end taken

end Sys2Proof.Machine
end

section
set_option Elab.async false
namespace Sys2Proof.Machine

/-! ## Settling behind RESUME -/

/-- The order at the head is not taken up: only the release stage drains. -/
theorem settle_front_refused {o : Order} {e : Engine} (h : e.Fronted o) (hs : e.seq.state ≠ .idle)
    (hp : e.prepares o = false) (hh : o.held = none) :
    (∃ more, e.settle.seq.queue = e.seq.queue ++ more) ∧ e.settle.seq.state = e.seq.state ∧ e.settle.faults = e.faults := by
  have hsame : Same [.queue] e e.gate.drain := (gate_same e).trans (drain_same _)
  have hrec : e.gate.drain.seq.recovery = e.seq.recovery := hsame .recovery (by decide)
  have hstate : e.gate.drain.seq.state = e.seq.state := (drain_state _).trans (gate_state e)
  have hrouse : e.gate.drain.rouse = e.gate.drain := rouse_awake (by rwa [hstate])
  have hprep : e.gate.drain.prepares o = false := by
    simp only [Engine.prepares, hstate, hrec]
    exact hp
  have front : e.gate.drain.Fronted o := h.gate.drain
  have hprepare : e.gate.prepare = e.gate.drain := by
    simp only [Engine.prepare, prepareLoop, hrouse, front.pOrder, hprep, Bool.false_eq_true, if_false]
  have hheld : e.gate.prepare.heldNow = e.gate.drain := by rw [hprepare, heldNow_none front.pOrder (.inl hh)]
  obtain ⟨k, hqueue, -⟩ := drain_orders e.gate
  obtain ⟨-, rest, hq, -⟩ := front
  obtain ⟨⟨b, hseq⟩, hfaults, -⟩ := settle_from hheld fun _ => by rw [hq]; exact List.cons_ne_nil _ _
  rw [hseq, hfaults]
  exact ⟨⟨e.gate.seq.stage.take k, by rw [← gate_queue e]; exact hqueue⟩, hstate, hsame .faults (by decide)⟩

/-- No order executes. -/
def Engine.Unstarted (e : Engine) : Prop := ∀ p ∈ e.seq.queue ++ e.seq.stage, p.state ≠ .executing

/-- Settling starts no order. -/
theorem settleKeeps_unstarted : SettleKeeps Engine.Unstarted where
  drain := fun {e} he => by rwa [Engine.Unstarted, drain_append]
  rouse := fun {e} he => by rwa [Engine.Unstarted, rouse_queue, rouse_stage]
  stale := fun {e p} he _ _ q hq => by
    rw [dropStale_seq] at hq
    rcases List.mem_append.1 hq with h | h
    · exact he q (List.mem_append_left _ (List.mem_filter.1 h).1)
    · exact he q (List.mem_append_right _ h)
  check := fun {e o} he _ q hq => by
    rcases List.mem_append.1 hq with hq | hq
    · obtain ⟨p, hp, rfl⟩ := List.mem_map.1 hq
      have := he p (List.mem_append_left _ hp)
      split
      · exact prepared_state this
      · exact this
    · exact he q (List.mem_append_right _ hq)
  gate := fun {e} he => by rwa [Engine.Unstarted, gate_queue, gate_stage]
  held := fun {e} he _ q hq => by
    obtain ⟨hstage, -, -, hqueue⟩ := writeHeld_orders e
    rw [hstage] at hq
    rcases List.mem_append.1 hq with hq | hq
    · rcases hqueue with h | ⟨o, -, h⟩ <;> rw [h] at hq
      · exact he q (List.mem_append_left _ hq)
      · obtain ⟨p, hp, rfl⟩ := List.mem_map.1 hq
        have := he p (List.mem_append_left _ hp)
        split <;> exact this
    · exact he q (List.mem_append_right _ hq)
  rest := fun {e} he => by rwa [Engine.Unstarted, rest_queue, rest_stage]
  lift := fun {e} he => by
    obtain ⟨b, hs⟩ := viewLift_seq e
    rwa [Engine.Unstarted, hs]
  power := fun _ he => he
  found := fun he => he

/-- A lift at VIEW or on its way stays where it is. -/
theorem settleKeeps_lift {l : Lift} (hl : l.state = .moving ∨ l.state = .held .view) : SettleKeeps fun e => e.lift = l where
  drain := fun {e} h => (drain_same e .lift (by decide) : _ = _).trans h
  rouse := fun {e} h => (rouse_same e .lift (by decide) : _ = _).trans h
  stale := fun {e o} h _ _ => (dropStale_same o e .lift (by decide) : _ = _).trans h
  check := fun h _ => h
  gate := fun {e} h => (gate_same e .lift (by decide) : _ = _).trans h
  held := fun {e} h _ => (writeHeld_same e .lift (by decide) : _ = _).trans h
  rest := fun {e} h => (rest_same e .lift (by decide) : _ = _).trans h
  lift := fun {e} h => by
    unfold Engine.viewLift
    split
    · rw [liftTo_still (e := { e with seq := { e.seq with liftToView := false } }) .fault (by rw [← h] at hl; exact hl)]
      exact h
    · exact h
  power := fun _ h => h
  found := fun h => h

/-- A sequencer at rest with no order anywhere holds what it held. -/
theorem settle_emptied_faults {e : Engine} (hq : e.seq.queue = []) (hst : e.seq.stageState = .empty)
    (hs : e.seq.state ≠ .running) : e.settle.faults = e.faults :=
  (settle_from (emptied_untouched hq hst) fun h => absurd h hs).2.1

/-- The glyph of a fault's order (R164). -/
theorem orderGlyph_eq (o : Order) (e : Engine) : e.orderGlyph o = e.glyphOf o := by
  unfold Engine.orderGlyph Engine.glyphOf
  cases hk : o.kind with
  | lift r =>
    simp only [Engine.liftRecord, hk]
    cases o.copy with
    | some c => rfl
    | none => cases r <;> rfl
  | strike f => rfl
  | move | ret n | feed n | wheelChange x | paperLoad | paperEject => rfl

theorem glyphOf_congr {e f : Engine} {o p : Order} (hk : p.kind = o.kind) (hc : p.copy = o.copy)
    (hm : f.memory = e.memory) : f.glyphOf p = e.glyphOf o := by
  unfold Engine.glyphOf Engine.liftRecord
  rw [hk, hc, hm]

/-- The order that RESUME makes QUEUED again. -/
theorem requeued_number (o : Order) : o.requeued.number = o.number := rfl

section resumed
variable {e f : Engine}

/-- What settling leaves behind RESUME, with the recovery that it begins. -/
theorem resume_settled {r : Recovery} (orders : OrdersOk e.seq)
    (hseq : f.seq = { e.seq with
      queue := e.seq.queue.map (·.requeued), state := if e.seq.queue = [] then .idle else .running
      recovery := r, liftToView := false })
    (hfaults : f.faults = {}) (hsame : Same [.faults, .queue, .message, .hammer, .recovery, .wheel, .carriage, .lift] e f)
    (hmounted : f.wheel.mounted = e.wheel.mounted) :
    let leaves := f.settle.faults.p = none ∧ f.settle.seq.state = if e.seq.queue = [] then .idle else .running
    f.settle.faults.x = none ∧ (∀ o ∈ f.settle.seq.queue, o.state ≠ .executing) ∧
    (e.seq.queue = [] → e.seq.stage = [] → leaves) ∧
    (r.wheel = true → e.seq.queue ≠ [] → leaves ∧
      f.settle.seq.queue.take e.seq.queue.length = e.seq.queue.map (·.requeued)) ∧
    (r.wheel = false → ∀ o rest, e.seq.queue = o :: rest → e.lasts o →
      (e.failure o = none → leaves ∧ f.settle.seq.queue.head? = some { o.requeued with state := .prepared }) ∧
      ∀ k, e.failure o = some k → f.settle.seq.state = .faulted ∧
        f.settle.seq.queue.head? = some { o.requeued with held := some k, heldWritten := true } ∧
        f.settle.faults.p = some { kind := k, order := some o.kind.name, group := o.group
                                   target := some (o.horizontal, o.vertical), glyph := e.glyphOf o, afterHammer := false
                                   required := none, count := 0, kinds := [] }) := by
  intro leaves
  obtain ⟨⟨hnodup, -⟩, -, -, -, hstage, hempty, -⟩ := orders
  have hrequeued : ∀ p ∈ e.seq.queue.map (·.requeued), p.state = .queued ∧ p.held = none := fun p hp => by
    obtain ⟨q, -, rfl⟩ := List.mem_map.1 hp
    exact ⟨rfl, rfl⟩
  have front : ∀ o rest, e.seq.queue = o :: rest → f.Fronted o.requeued := fun o rest hq => by
    refine ⟨OrderState.noConfusion, rest.map (·.requeued), by rw [hseq]; simp only [hq, List.map_cons], fun p hp heq => ?_⟩
    rw [hq, List.cons_append, List.map_cons, List.nodup_cons] at hnodup
    rw [hseq] at hp
    refine hnodup.1 (?_ : o.number ∈ _)
    rw [← heq.trans (requeued_number o), List.map_append]
    rcases List.mem_append.1 hp with hp | hp
    · obtain ⟨q, hq, rfl⟩ := List.mem_map.1 hp
      exact List.mem_append_left _ (List.mem_map_of_mem hq : q.number ∈ rest.map (·.number))
    · exact List.mem_append_right _ (List.mem_map_of_mem hp)
  have running : e.seq.queue ≠ [] → f.seq.state = .running := fun h => by rw [hseq]; exact if_neg h
  refine ⟨?_, ?_, fun hq hst => ?_, fun hw hq => ?_, fun hw o rest hq hl => ?_⟩
  · rw [settle_x, hfaults]
  · refine fun o ho => (settleKeeps_unstarted.settle (e := f) fun p hp => ?_) o (List.mem_append_left _ ho)
    rw [hseq] at hp
    rcases List.mem_append.1 hp with hp | hp
    · rw [(hrequeued p hp).1]
      exact OrderState.noConfusion
    · rw [(hstage p hp).1]
      exact OrderState.noConfusion
  · have hfq : f.seq.queue = [] := by rw [hseq]; simp only [hq, List.map_nil]
    have hfst : f.seq.stageState = .empty := by rw [hseq]; exact hempty.2 hst
    have hidle : f.seq.state = .idle := by rw [hseq]; exact if_pos hq
    have hrest : f.seq.state ≠ .running := by rw [hidle]; decide
    obtain ⟨-, -, hend⟩ := settle_emptied hfq hfst
    refine ⟨by rw [settle_emptied_faults hfq hfst hrest, hfaults], ?_⟩
    rw [(hend hrest).2, hidle, if_pos hq]
  · obtain ⟨o, rest, hqueue⟩ := List.exists_cons_of_ne_nil hq
    have hprep : f.prepares o.requeued = false := by
      rw [Engine.prepares, running hq, hseq, hw]
      rfl
    obtain ⟨⟨more, htake⟩, hstate, hfs⟩ := settle_front_refused (front o rest hqueue) (by rw [running hq]; decide) hprep rfl
    refine ⟨⟨by rw [hfs, hfaults], by rw [hstate, running hq, if_neg hq]⟩, ?_⟩
    rw [htake, hseq]
    exact List.take_left' (by rw [List.length_map])
  · have hne : e.seq.queue ≠ [] := by rw [hq]; exact List.cons_ne_nil _ _
    have hprep : f.prepares o.requeued = true := by
      rw [Engine.prepares, running hne, hseq, hw]
      rfl
    have hmemory : f.memory = e.memory := hsame .memory (by decide)
    have hlast : f.lasts o.requeued := fun hk => by
      have hrec : f.liftRecord o.requeued = e.liftRecord o := by
        simp only [Engine.liftRecord, Order.requeued, hmemory]
      rw [hrec]
      exact hl hk
    have hfail : f.failure o.requeued = e.failure o :=
      failure_congr rfl (hsame .levels (by decide)) (hsame .slots (by decide)) hmounted hmemory
    have hs : f.seq.state ≠ .idle := by rw [running hne]; decide
    refine ⟨fun hnone => ?_, fun k hk => ?_⟩
    · have hpassed : o.requeued.prepared (Check.of (f.failure o.requeued)) = { o.requeued with state := .prepared } := by
        rw [hfail, hnone]
        rfl
      obtain ⟨hhead, hstate, hfs⟩ := settle_front_quiet (front o rest hq) hs hprep hlast (by rw [hpassed]; exact .inl rfl)
      rw [hpassed] at hhead
      exact ⟨⟨by rw [hfs, hfaults], by rw [hstate, running hne, if_neg hne]⟩, hhead⟩
    · obtain ⟨hhead, hstate, hfs, -⟩ := settle_front_fails (front o rest hq) hs hprep hlast (hfail.trans hk)
        (fun h => by cases h)
      refine ⟨by rw [hstate, running hne]; rfl, hhead, ?_⟩
      have hchecked := frontChecked_same o.requeued f
      have hp : ((f.frontChecked o.requeued).nameOrder o.requeued).faults.p = none := by
        have h : (f.frontChecked o.requeued).faults = f.faults := hchecked .faults (by decide)
        simp only [Engine.nameOrder, h, hfaults]
      have hglyph : ((f.frontChecked o.requeued).nameOrder o.requeued).orderGlyph o.requeued = e.glyphOf o := by
        refine (orderGlyph_eq _ _).trans (glyphOf_congr rfl rfl ?_)
        exact (hchecked .memory (by decide) : _ = _).trans hmemory
      rw [hfs, Engine.frontFailed, (writeFault_p _ _).2, hp]
      simp only [putFault, Engine.faultOf, hglyph, Bool.false_and]
      rfl

end resumed

end Sys2Proof.Machine
end

section
set_option Elab.async false
namespace Sys2Proof.Machine

/-! ## The refusals of RESUME, and what it homes the wheel for (R55, R169) -/

theorem isChange_iff (o : Order) : o.isChange = true ↔ o.kind.name = .wheelChange := by
  unfold Order.isChange
  cases o.kind <;> simp [OrderKind.name]

/-- The sensors and the orders that refuse a RESUME (R169). -/
theorem resumeBlocked_iff (e : Engine) : e.resumeBlocked = true ↔
    e.levels.closed = false ∨
    (e.levels.present = false ∧ (e.executing.map (·.kind.name) = some .strike ∨ e.executing.map (·.kind.name) = some .lift ∨
      e.faults.p.bind (·.order) = some .strike ∨ e.faults.p.bind (·.order) = some .lift)) ∨
    (e.levels.ribbonEnd = true ∧ (e.executing.map (·.kind.name) = some .strike ∨ e.pOrder.map (·.kind.name) = some .strike)) ∨
    (e.levels.tapeEnd = true ∧ (e.executing.map (·.kind.name) = some .lift ∨ e.pOrder.map (·.kind.name) = some .lift)) := by
  have hx : ∀ n : OrderName, n ∈ (e.executing.map (·.kind.name)).toList ↔ e.executing.map (·.kind.name) = some n :=
    fun n => Option.mem_toList
  have hp : ∀ n : OrderName, n ∈ (e.pOrder.map (·.kind.name)).toList ↔ e.pOrder.map (·.kind.name) = some n :=
    fun n => Option.mem_toList
  have hn : ∀ n : OrderName, n ∈ (e.faults.p.bind (·.order)).toList ↔ e.faults.p.bind (·.order) = some n :=
    fun n => Option.mem_toList
  simp only [Engine.resumeBlocked, Engine.pausedKinds, Engine.pairKinds, List.mem_append, hx, hp, hn, Bool.or_eq_true,
    Bool.and_eq_true, Bool.not_eq_true', decide_eq_true_eq]
  tauto

theorem resumeHomes_iff (e : Engine) : e.resumeHomes = true ↔
    (e.wheel.state = .unknown ∨ e.wheel.state = .off ∨
      ∃ f, e.faults.x = some f ∧ (f.kind = .wheelMismatch ∨ .wheelMismatch ∈ f.kinds)) ∧
    e.executing.map (·.kind.name) ≠ some .wheelChange := by
  have hx : e.executing.any (·.isChange) = false ↔ e.executing.map (·.kind.name) ≠ some .wheelChange := by
    rw [Bool.eq_false_iff, ne_eq, not_iff_not]
    cases e.executing with
    | none => simp
    | some o => simpa using isChange_iff o
  unfold Engine.resumeHomes
  cases hf : e.faults.x with
  | none => simp [hx, and_comm]
  | some f => simp [hx, FaultSlot.holds, and_comm, or_comm, or_left_comm]

theorem resumed_iff (w : Wheel) :
    w.resumed = true ↔ ∃ h, w.homing = some h ∧ h.use ∈ [HomingUse.resume, .order, .change] := by
  unfold Wheel.resumed
  cases w.homing <;> simp [or_assoc]

/-- The orders behind the faulted one (R55). -/
theorem behindFault_eq (e : Engine) : e.behindFault =
    if e.executing.isSome = true ∨ (e.faults.x = none ∧ e.faults.p.isSome = true ∧
      e.seq.queue.head?.map (·.number) = e.faults.named) then e.seq.queue.tail else e.seq.queue := by
  unfold Engine.behindFault
  have h : e.headFaulted = true ↔ e.executing.isSome = true ∨ (e.faults.x = none ∧ e.faults.p.isSome = true ∧
      e.seq.queue.head?.map (·.number) = e.faults.named) := by
    simp [Engine.headFaulted, and_assoc]
  simp only [h, List.drop_one]

/-- The id that RESUME's homing requires (R55). -/
theorem resumeRequired_cases (e : Engine) :
    (∀ f, e.faults.x = some f → f.kind = .wheelMismatch → e.resumeRequired = f.required) ∧
    ((∀ f, e.faults.x = some f → f.kind ≠ .wheelMismatch) → e.resumeRequired =
      if e.behindFault.any (fun o => o.kind.name = .wheelChange) then e.faults.wheelBefore else e.comp.wheel) := by
  have hany : e.behindFault.any (·.isChange) = e.behindFault.any fun o => decide (o.kind.name = .wheelChange) := by
    congr 1
    funext o
    rw [Bool.eq_iff_iff, isChange_iff, decide_eq_true_eq]
  refine ⟨fun f hf hk => ?_, fun hf => ?_⟩
  · simp only [Engine.resumeRequired, hf, hk, if_true]
  · cases hx : e.faults.x with
    | none => simp only [Engine.resumeRequired, hx, hany]
    | some f => simp only [Engine.resumeRequired, hx, hany, hf f hx, if_false]

/-- Settles O36: what RESUME leaves before settling is `resume_orders`, and what settling makes of it `resume_settled`. -/
theorem resumeRequest : Obligations.ResumeRequest := by
  unfold Obligations.ResumeRequest
  intro s hears
  have hexec : exec .resume s = .next (s.on fun e =>
    (e.answer 0x13 true plainRefusal false (settled Engine.opResume)).refresh) := rfl
  refine ⟨fun late => ?_, fun hlate hno => ?_, fun hlate held hfree ht hent hup orders => ?_⟩
  · refine exec_refuses (status := .busy) hexec hears fun y => if_pos ?_
    exact late.imp id Option.isSome_iff_ne_none.2
  · have hnot : ∀ y, ¬ ((s.withTx y).power.state = .starting ∨ (s.withTx y).power.softReset.isSome = true) := fun y h =>
      hlate (h.imp id Option.isSome_iff_ne_none.1)
    refine exec_refuses (status := .state) hexec hears fun y => (if_neg (hnot y)).trans (if_pos ?_)
    have hblocked := resumeBlocked_iff (s.withTx y)
    rw [Bool.or_eq_true, Bool.or_eq_true]
    rcases hno with h | h | h
    · refine .inl (.inl ((faults_empty_iff _).2 ?_))
      rw [not_or, not_not, not_not] at h
      exact h
    · exact .inl (.inr (Option.isSome_iff_ne_none.2 h))
    · exact .inr (hblocked.2 h)
  · obtain ⟨hroom, hon, hoff⟩ := id hears
    simp only [not_or, not_not] at hlate
    obtain ⟨hstart, hsoft⟩ := hlate
    have hfull : s.faults.empty = false := by
      rw [Bool.eq_false_iff, ne_eq, faults_empty_iff]
      rintro ⟨hx, hp⟩
      exact held.elim (fun h => h hx) fun h => h hp
    have hclear : s.resumeBlocked = false := Bool.eq_false_iff.2 fun h => hfree ((resumeBlocked_iff s.toEngine).1 h)
    have hclosed : s.levels.closed = true := by
      simp only [not_or] at hfree
      simpa using hfree.1
    have hop : ∀ y, Engine.opResume (s.withTx y) = ([0x00], (s.withTx y).recovering.advanceRecovery) := fun y => by
      have hb : ((s.withTx y).faults.empty || (s.withTx y).selfTest.isSome || (s.withTx y).resumeBlocked) = false := by
        have h1 : (s.withTx y).faults.empty = false := hfull
        have h2 : (s.withTx y).selfTest = none := ht
        have h3 : (s.withTx y).resumeBlocked = false := hclear
        rw [h1, h2, h3]
        rfl
      rw [Engine.opResume, if_neg ?_, hb, if_neg Bool.false_ne_true,
        resume_recovers (e := s.withTx y) hfull ht hent hsoft hup hoff]
      · rfl
      · rintro (h | h)
        · exact hstart h
        · rw [show (s.withTx y).power.softReset = none from hsoft] at h
          cases h
    obtain ⟨t, hex, hanswered, keeps, y, l, n, heq⟩ := exec_settled hexec hears hop fun y =>
      (resume_orders (e := s.withTx y) hfull rfl).2.2.2
    obtain ⟨⟨r, hseq, hr⟩, hfaults, hhammer, hsame⟩ := resume_orders (e := s.withTx y) hfull rfl
    have hmounted := resume_mounted (s.withTx y)
    have hcarriage := fun quiet hlost => resume_carriage (e := s.withTx y) hfull quiet hlost
    have hlift := fun quiet hu => resume_lift (e := s.withTx y) hfull quiet hu
    have hwheel := fun hh => resume_wheel (e := s.withTx y) hh hclosed rfl
    generalize (s.withTx y).recovering.advanceRecovery = f at *
    obtain ⟨hx, hstopped, hempty, hhoming, hhead⟩ :=
      resume_settled (e := s.withTx y) orders hseq hfaults hsame hmounted
    have hset := settle_same f
    have hcar' : f.settle.carriage = f.carriage := hset .carriage (by decide)
    have hham' : f.settle.hammer = f.hammer := hset .hammer (by decide)
    have hrec' : f.settle.seq.recovery = f.seq.recovery := hset .recovery (by decide)
    have hwh' := hset.wheel
    have hl' := fun h => (settleKeeps_lift (l := f.lift) h).settle (e := f) rfl
    generalize f.settle = d at *
    have hts : t.seq = d.seq := by rw [heq, Engine.refresh_seq]
    have htf : t.faults = d.faults := by rw [heq, Engine.refresh_faults]
    have htc : t.carriage = f.carriage := by rw [heq, Engine.refresh_carriage]; exact hcar'
    have htl : t.lift = d.lift := by rw [heq, Engine.refresh_lift]
    have hth : t.hammer = f.hammer := by rw [heq, Engine.refresh_hammer]; exact hham'
    have htw : t.wheel = d.wheel := by rw [heq, Engine.refresh_wheel]
    have hhomes := resumeHomes_iff s.toEngine
    have hresumed := resumed_iff s.wheel
    refine ⟨t, hex, hanswered, ?_⟩
    beta_reduce
    rw [hts, htf, htc, htl, hth, htw]
    refine ⟨hx, hstopped, hempty, fun h hq => hhoming ?_ hq, fun h1 h2 => hhead ?_, hcarriage, fun quiet hu => ?_, hhammer,
      fun h => ?_, keeps.1, keeps.2.mono (by decide)⟩
    · rw [hr, Bool.or_eq_true]
      exact h.imp hhomes.2 hresumed.2
    · rw [hr, Bool.or_eq_false_iff]
      exact ⟨Bool.eq_false_iff.2 fun h => h1 (hhomes.1 h), Bool.eq_false_iff.2 fun h => h2 (hresumed.1 h)⟩
    · obtain ⟨hmoves, hholds⟩ := hlift quiet hu
      refine ⟨fun hv => ?_, fun hv => ?_⟩
      · rw [hl' (.inl (hmoves hv).1)]
        exact hmoves hv
      · rw [hl' (.inr (hholds hv))]
        exact hholds hv
    · obtain ⟨hstate, hhome⟩ := hwheel (hhomes.2 h)
      obtain ⟨hreq, hother⟩ := resumeRequired_cases s.toEngine
      refine ⟨(congrArg Wheel.state hwh' :).trans hstate, ?_, _, (congrArg Wheel.homing hwh' :).trans hhome, rfl, rfl,
        hreq, fun hf => (hother hf).trans ?_⟩
      · rw [hrec', hseq]
        exact hr.trans (by rw [show (s.withTx y).resumeHomes = true from hhomes.2 h]; rfl)
      · rw [behindFault_eq]

end Sys2Proof.Machine
end

section
set_option Elab.async false
namespace Sys2Proof.Machine

/-! ## What follows a change of a sensor's level (R99, R191) -/

/-- What a change of level leads to, from a given outgoing line and display. -/
def Engine.sensed (k : Engine → Engine) (l : Link) (d : Display) (e : Engine) : Engine :=
  (k { e with link := l, display := d }).after

theorem offer_eq {n : Notice} {e : Engine} (on : e.power.state ≠ .deepOff) :
    e.offer n = { e with link := e.link.noticed n, display := e.display.showText n.timedText } := if_neg on

theorem withFree_self (e : Engine) : { e with free := e.free } = e := rfl

/-- The link before the other notices of a change of level, whose SENSOR notice stands among them. -/
def Link.busied (l : Link) : Link := { l with tx := some busyLine, notices := [] }

/-- A change of level leads to what it leads to behind its SENSOR notice, or ahead of it, or else alone, with the
SENSOR notice among the others. -/
theorem senses_sensed {name : Sensor} {f : Levels → Levels} {k : Engine → Engine} {e : Engine}
    (on : e.power.state ≠ .deepOff) :
    let e' : Engine := { e with levels := f e.levels }
    let n : Notice := .sensor (some name) e'.levels
    (∃ c, e.senses name f k =
      { e'.sensed k (e.link.noticed n) (e.display.showText n.timedText) with free := c }) ∨
    (∃ c p, e.senses name f k =
      let rest := e'.sensed k e.link.busied e.display
      { rest with link := e.link.takes (rest.link.notices.take p ++ n :: rest.link.notices.drop p), free := c }) ∨
    ∃ c, e.senses name f k = { (e'.sensed k e.link e.display).offer n with free := c } := by
  intro e' n
  have hearly : e'.sensorEarly n k = e'.sensed k (e.link.noticed n) (e.display.showText n.timedText) := by
    rw [Engine.sensorEarly, offer_eq (e := e') on]
    rfl
  have hbare : ∀ g : Engine, g = { g with free := g.free } := fun _ => rfl
  rcases senses_cases name f k e with h | ⟨c, h⟩ | ⟨c, p, h, -⟩ | ⟨c, h⟩
  · exact .inl ⟨_, h.trans (hearly.trans (hbare _))⟩
  · exact .inl ⟨c, by rw [← hearly]; exact h⟩
  · exact .inr (.inl ⟨c, p, h⟩)
  · exact .inr (.inr ⟨c, h⟩)

/-- What an offered notice leaves as it was. -/
theorem offer_stable {P : Engine → Prop} (stable : ∀ g l d c, P g → P { g with link := l, display := d, free := c })
    {n : Notice} {g : Engine} {c : Nat} (h : P g) : P { g.offer n with free := c } := by
  by_cases on : g.power.state = .deepOff
  · rw [Engine.offer, if_pos on]
    exact stable g g.link g.display c h
  · rw [offer_eq on]
    exact stable g _ _ c h

theorem takes_rx (ns : List Notice) (l : Link) : (l.takes ns).rx = l.rx := by
  have hp : ∀ l : Link, l.pump.rx = l.rx := fun l => by unfold Link.pump; split <;> (try split) <;> rfl
  induction ns generalizing l with
  | nil => rfl
  | cons n ns ih => exact (ih _).trans (hp _)

section sensing
variable {name : Sensor} {f : Levels → Levels} {k : Engine → Engine} {e : Engine}

/-- What holds however the outgoing line and the display stand before and after holds of a change of level. -/
theorem senses_holds {P : Engine → Prop} (on : e.power.state ≠ .deepOff)
    (stable : ∀ g l d c, P g → P { g with link := l, display := d, free := c })
    (h : ∀ l d, P (Engine.sensed k l d { e with levels := f e.levels })) : P (e.senses name f k) := by
  rcases senses_sensed (name := name) (f := f) (k := k) on with ⟨c, h'⟩ | ⟨c, p, h'⟩ | ⟨c, h'⟩
  · rw [h']
    exact stable _ _ _ _ (h _ _)
  · rw [h']
    exact stable _ _ _ _ (h _ _)
  · rw [h']
    exact offer_stable stable (h _ _)

/-- What a change of level leaves alone. -/
theorem senses_same {xs : List Piece} (on : e.power.state ≠ .deepOff)
    (h : ∀ l d, Same xs { e with levels := f e.levels, link := l, display := d }
      (Engine.sensed k l d { e with levels := f e.levels })) (hx : Piece.receiver ∉ xs := by decide) :
    Same ([.outgoing, .message, .openValues] ++ xs) { e with levels := f e.levels } (e.senses name f k) := by
  have hfree : ∀ (g : Engine) c, Same [.openValues] g { g with free := c } := fun g c p hp => by
    cases p <;> simp_all [Piece.same]
  have hlink : ∀ (g : Engine) (l : Link), l.rx = g.link.rx → Same [.outgoing] g { g with link := l } :=
    fun g l hl p hp => by cases p <;> simp_all [Piece.same]
  have more : xs ⊆ [.outgoing, .message, .openValues] ++ xs := List.subset_append_right _ _
  have said : [.outgoing, .message] ⊆ [.outgoing, .message, .openValues] ++ xs :=
    List.subset_append_of_subset_left _ (by decide)
  have drawn : [.openValues] ⊆ [.outgoing, .message, .openValues] ++ xs :=
    List.subset_append_of_subset_left _ (by decide)
  have out : [.outgoing] ⊆ [.outgoing, .message, .openValues] ++ xs :=
    List.subset_append_of_subset_left _ (by decide)
  rcases senses_sensed (name := name) (f := f) (k := k) on with ⟨c, h'⟩ | ⟨c, p, h'⟩ | ⟨c, h'⟩
  · have hoffer := offer_same (.sensor (some name) (f e.levels)) { e with levels := f e.levels }
    rw [offer_eq (e := { e with levels := f e.levels }) on] at hoffer
    rw [h']
    exact ((hoffer.mono said).trans ((h _ _).mono more)).trans ((hfree _ c).mono drawn)
  · have start : Same [.outgoing] _ _ := hlink { e with levels := f e.levels } e.link.busied rfl
    have rest := (start.mono out).trans ((h e.link.busied e.display).mono more)
    have hrest : (Engine.sensed k e.link.busied e.display { e with levels := f e.levels }).link.rx = e.link.rx :=
      h e.link.busied e.display .receiver hx
    rw [h']
    exact rest.trans (((hlink _ _ ((takes_rx _ _).trans hrest.symm)).mono out).trans ((hfree _ c).mono drawn))
  · rw [h']
    exact (((h _ _).mono more).trans ((offer_same _ _).mono said)).trans ((hfree _ c).mono drawn)

/-- The SENSOR notice of a change of level is raised, or lost to an OVERFLOW. -/
theorem senses_said (on : e.power.state ≠ .deepOff) (htx : e.link.tx ≠ none)
    (hon : ∀ l d, (Engine.sensed k l d { e with levels := f e.levels }).power.state ≠ .deepOff)
    (hlink : ∀ (l : Link) d, l.Keeps (Engine.sensed k l d { e with levels := f e.levels }).link) :
    (e.senses name f k).raised (.sensor (some name) (f e.levels)) ∨ (e.senses name f k).overflowed := by
  rcases senses_sensed (name := name) (f := f) (k := k) on with ⟨c, h'⟩ | ⟨c, p, h'⟩ | ⟨c, h'⟩
  · rw [h']
    have hbusy := Link.noticed_busy (.sensor (some name) (f e.levels)) htx
    obtain ⟨-, hkept, hover⟩ := hlink (e.link.noticed (.sensor (some name) (f e.levels)))
      (e.display.showText (Notice.sensor (some name) (f e.levels)).timedText) (by rw [hbusy]; exact htx)
    rcases takeNotice_taken (.sensor (some name) (f e.levels)) e.link.notices with hin | hin
    · exact .inl (hkept _ (by rw [hbusy]; exact hin) rfl)
    · exact .inr (hover (by rw [hbusy]; exact hin))
  · rw [h']
    exact Link.takes_mem htx (by simp)
  · obtain ⟨hbusy, -⟩ := hlink e.link e.display htx
    rw [h']
    exact offer_taken (hon _ _) hbusy

/-- A notice that a change of level always leads to is raised, or lost to an OVERFLOW. -/
theorem senses_raises {n : Notice} (hn : n.isOverflow = false) (on : e.power.state ≠ .deepOff) (htx : e.link.tx ≠ none)
    (h : ∀ (l : Link) d, l.tx ≠ none → let g := Engine.sensed k l d { e with levels := f e.levels }
      g.link.tx ≠ none ∧ (g.raised n ∨ g.overflowed)) :
    (e.senses name f k).raised n ∨ (e.senses name f k).overflowed := by
  rcases senses_sensed (name := name) (f := f) (k := k) on with ⟨c, h'⟩ | ⟨c, p, h'⟩ | ⟨c, h'⟩
  · rw [h']
    refine (h _ _ ?_).2
    rw [Link.noticed_busy _ htx]
    exact htx
  · rw [h']
    obtain ⟨-, hin⟩ := h e.link.busied e.display (fun h => nomatch h)
    have hmem : ∀ (m x : Notice) (q : List Notice), m ∈ q → m ∈ q.take p ++ x :: q.drop p := fun m x q hm => by
      rw [← List.take_append_drop p q] at hm
      rcases List.mem_append.1 hm with hm | hm <;> simp [hm]
    rcases hin with hin | ⟨m, hm, hover⟩
    · exact Link.takes_mem htx (hmem _ _ _ hin)
    · rcases Link.takes_mem (l := e.link) htx (hmem _ (.sensor (some name) (f e.levels)) _ hm) with k | k
      · exact .inr ⟨m, k, hover⟩
      · exact .inr k
  · rw [h']
    obtain ⟨hbusy, hin⟩ := h e.link e.display htx
    generalize Engine.sensed k e.link e.display _ = g at *
    obtain ⟨-, hkept, hover⟩ := offer_keeps (n := .sensor (some name) (f e.levels)) (Link.Keeps.refl g.link) hbusy
    exact hin.imp (fun hin => hkept n hin hn) hover

/-- With nothing else to say, a change of level leaves the outgoing line with its SENSOR notice alone. -/
theorem senses_quiet (on : e.power.state ≠ .deepOff)
    (hon : ∀ l d, (Engine.sensed k l d { e with levels := f e.levels }).power.state ≠ .deepOff)
    (h : ∀ l d, (Engine.sensed k l d { e with levels := f e.levels }).link = l) :
    (e.senses name f k).link = e.link.noticed (.sensor (some name) (f e.levels)) := by
  rcases senses_sensed (name := name) (f := f) (k := k) on with ⟨c, h'⟩ | ⟨c, p, h'⟩ | ⟨c, h'⟩
  · rw [h']
    exact h _ _
  · rw [h']
    simp only [h, Link.busied, List.take_nil, List.drop_nil, List.nil_append]
    rfl
  · rw [h']
    show (Engine.offer _ _).link = _
    rw [offer_link (hon _ _), h]

/-- With at most one other notice to raise on a busy line with no notice waiting, a change of level raises that one and
its SENSOR notice. -/
theorem senses_follows {n : Notice} {due : Prop} [Decidable due] (on : e.power.state ≠ .deepOff)
    (hne : n ≠ .sensor (some name) (f e.levels)) (hns : n.isOverflow = false) (htx : e.link.tx ≠ none)
    (hnil : e.link.notices = [])
    (hon : ∀ l d, (Engine.sensed k l d { e with levels := f e.levels }).power.state ≠ .deepOff)
    (h : ∀ (l : Link) d, l.tx ≠ none → let g := Engine.sensed k l d { e with levels := f e.levels }
      g.link.tx ≠ none ∧ g.link.notices = if due then takeNotice n l.notices else l.notices) :
    (e.senses name f k).raised n ↔ due := by
  have htake : ∀ m q, q.length ≤ 1 → (∀ x ∈ q, x.isOverflow = false) → takeNotice m q = q ++ [m] := fun m q hl hq =>
    takeNotice_room (by omega) hq
  have hone : ∀ m : Notice, takeNotice m [] = [m] := fun m => rfl
  have htwo : ∀ m x : Notice, m.isOverflow = false → takeNotice x [m] = [m, x] := fun m x hm =>
    htake x [m] (Nat.le_refl 1) (by simpa using hm)
  have hsensor : (Notice.sensor (some name) (f e.levels)).isOverflow = false := rfl
  rcases senses_sensed (name := name) (f := f) (k := k) on with ⟨c, h'⟩ | ⟨c, p, h'⟩ | ⟨c, h'⟩
  · have hbusy := Link.noticed_busy (.sensor (some name) (f e.levels)) htx
    obtain ⟨-, hlist⟩ := h (e.link.noticed (.sensor (some name) (f e.levels)))
      (e.display.showText (Notice.sensor (some name) (f e.levels)).timedText) (by rw [hbusy]; exact htx)
    rw [h']
    show n ∈ (Engine.sensed k _ _ _).link.notices ↔ due
    rw [hlist, hbusy, hnil, hone, htwo _ _ hsensor]
    split <;> simp_all
  · obtain ⟨-, hlist⟩ := h e.link.busied e.display (fun h => nomatch h)
    rw [h']
    show n ∈ (e.link.takes _).notices ↔ due
    rw [hlist, Link.takes_busy _ htx, hnil]
    show n ∈ List.foldl _ [] _ ↔ due
    by_cases hd : due
    · rcases p with - | p <;> simp [hd, Link.busied, hone, htwo _ _ hsensor, htwo _ _ hns]
    · simp [hd, Link.busied, hone, hne]
  · obtain ⟨hbusy, hlist⟩ := h e.link e.display htx
    rw [h']
    show n ∈ (Engine.offer _ _).link.notices ↔ due
    rw [offer_link (hon _ _), Link.noticed_busy _ hbusy, hlist, hnil, hone]
    by_cases hd : due
    · simp [hd, htwo _ _ hns]
    · simp [hd, hone, hne]

end sensing
end Sys2Proof.Machine
end

section
set_option Elab.async false
namespace Sys2Proof.Machine

/-! ## What an event leaves when no order executes -/

/-- The executing order takes no step of its own: there is none, or a fault holds it, or it is a WHEEL_CHANGE at the
cover. -/
def Engine.Stands (e : Engine) : Prop :=
  e.executing = none ∨ e.faults.empty = false ∨
    ∃ o x, e.executing = some o ∧ o.kind = .wheelChange x ∧ o.phase ≠ .start ∧ e.faults.empty = true

theorem advanceOrder_stands {e : Engine} (h : e.Stands) : e.advanceOrder = e := by
  rcases h with h | h | ⟨o, x, hx, hk, hp, hf⟩
  · exact advanceOrder_idle h
  · exact advanceOrder_faulted h
  · rw [advanceOrder_change hx hf hk]
    unfold Engine.advanceChange
    split
    · contradiction
    all_goals rfl

theorem after_stands {e : Engine} (h : e.Alone) (stands : e.Stands) (on : e.power.state ≠ .deepOff) :
    e.after = e.viewLift.settle.refresh := by
  have hx := executing_viewLift e
  have hf : e.viewLift.faults = e.faults := viewLift_same e .faults (by decide)
  rw [after_alone h on, advanceOrder_stands (by rwa [Engine.Stands, hx, hf])]

/-- While no order takes a step, only the waiting lift move and the settling follow an event. -/
theorem after_same {e : Engine} (h : e.Alone) (hx : e.Stands) (on : e.power.state ≠ .deepOff) :
    Same settleParts e e.after := by
  rw [after_stands h hx on]
  exact ((viewLift_same e).next (settle_same _)).trans ((refresh_same _).mono (by decide))

theorem after_power_state {e : Engine} (h : e.Alone) (hx : e.Stands) (on : e.power.state ≠ .deepOff) :
    e.after.power.state = e.power.state := by
  rw [after_stands h hx on, Engine.refresh_power, settle_power_state]
  exact (viewLift_same e).power_state

theorem after_keeps {e : Engine} (h : e.Alone) (hx : e.Stands) (on : e.power.state ≠ .deepOff) :
    e.link.Keeps e.after.link := by
  rw [after_stands h hx on, Engine.refresh_link]
  exact ((viewLift_same e).link (.refl _)).trans (settle_link _)

/-- What settling keeps stays while no order takes a step. -/
theorem after_settleKeeps {P : Engine → Prop} (hP : SettleKeeps P) (refresh : ∀ g : Engine, P g → P g.refresh) {e : Engine}
    (h : e.Alone) (hx : e.Stands) (on : e.power.state ≠ .deepOff) (he : P e) : P e.after := by
  rw [after_stands h hx on]
  exact refresh _ (hP.settle (hP.lift he))

/-- An operation that leaves the receiver and the outgoing line alone leaves the link as it was. -/
theorem Same.link_eq {xs : List Piece} {e f : Engine} (h : Same xs e f)
    (hx : Piece.receiver ∉ xs ∧ Piece.outgoing ∉ xs := by decide) : f.link = e.link := by
  obtain ⟨hreplies, htx, hnotices⟩ := h .outgoing hx.2
  have hrx : f.link.rx = e.link.rx := h .receiver hx.1
  generalize f.link = l at *
  generalize e.link = m at *
  cases l
  cases m
  simp_all

/-- With no order anywhere and the sequencer at rest settling says nothing. -/
theorem settle_emptied_link {e : Engine} (hq : e.seq.queue = []) (hst : e.seq.stageState = .empty)
    (hs : e.seq.state ≠ .running) : e.settle.link = e.link := by
  have hrest : e.rest = e := if_neg fun h => hs h.1
  obtain ⟨q, hdrop, -⟩ := dropEntry_eq e.viewLift
  obtain ⟨r, hupdate, -⟩ := standbyUpdate_eq e.viewLift.dropEntry
  have hsettle : e.settle.link = e.viewLift.dropEntry.link := by
    simp only [Engine.settle, emptied_untouched hq hst, hrest]
    rw [hupdate]
  rw [hsettle, hdrop]
  exact (viewLift_same e).link_eq

section front
variable {e : Engine} {o : Order}

theorem Engine.Fronted.viewLift (h : e.Fronted o) : e.viewLift.Fronted o := by
  obtain ⟨b, hs⟩ := viewLift_seq e
  rwa [Engine.Fronted, hs]

/-- The order whose failure the P slot holds is checked again by an event: it passes, or fails as before. -/
theorem after_front_quiet (alone : e.Alone) (on : e.power.state ≠ .deepOff) (h : e.Fronted o) (hs : e.seq.state = .faulted)
    (hl : e.lasts o) {k : FaultKind} (hk : o.held = some k) (hw : o.heldWritten = true)
    (hq : e.failure o = none ∨ e.failure o = some k) :
    e.after.faults = e.faults ∧ e.after.seq.queue.head? = some (o.prepared (Check.of (e.failure o))) := by
  obtain ⟨b, hb⟩ := viewLift_seq e
  have hsame := viewLift_same e
  have hmemory : e.viewLift.memory = e.memory := hsame .memory (by decide)
  have hfail : e.viewLift.failure o = e.failure o := failure_congr rfl (hsame .levels (by decide)) (hsame .slots (by decide))
    (congrArg Wheel.mounted hsame.wheel :) hmemory
  have hlasts : e.viewLift.lasts o := fun hname => by
    simp only [Engine.liftRecord, hmemory]
    exact hl hname
  have hprep : (o.prepared (Check.of (e.failure o))).held = none ∨
      (o.prepared (Check.of (e.failure o))).heldWritten = true := by
    rcases hq with hq | hq <;> rw [hq]
    · exact .inl rfl
    · exact .inr (by simp [Order.prepared, Check.of, hk, hw])
  obtain ⟨hhead, -, hfaults⟩ := settle_front_quiet h.viewLift (by rw [hb]; simp [hs]) (by simp [Engine.prepares, hk]) hlasts
    (by rwa [hfail])
  rw [after_idle alone h.executing on, Engine.refresh_faults, Engine.refresh_seq, hhead, hfaults, hfail]
  exact ⟨hsame .faults (by decide), rfl⟩

/-- The order whose failure the P slot holds fails in another way: the slot takes the further kind. -/
theorem after_front_fails (alone : e.Alone) (on : e.power.state ≠ .deepOff) (h : e.Fronted o) (hs : e.seq.state = .faulted)
    (hl : e.lasts o) {k k' : FaultKind} (hk : o.held = some k) (hfail : e.failure o = some k') (hne : k' ≠ k)
    {f : FaultSlot} (hp : e.faults.p = some f) :
    e.after.faults.x = e.faults.x ∧ e.after.faults.p = some (f.further k') ∧
    e.after.seq.queue.head? = some { o with state := .queued, held := some k', heldWritten := true } ∧
    (e.link.tx ≠ none → e.after.link.tx ≠ none ∧ e.after.link.notices =
      if f.holds k' = false then takeNotice (f.notice .p k') e.link.notices else e.link.notices) := by
  obtain ⟨b, hb⟩ := viewLift_seq e
  have hsame := viewLift_same e
  have hmemory : e.viewLift.memory = e.memory := hsame .memory (by decide)
  have hfail' : e.viewLift.failure o = some k' := by
    rw [← hfail]
    exact failure_congr rfl (hsame .levels (by decide)) (hsame .slots (by decide)) (congrArg Wheel.mounted hsame.wheel :)
      hmemory
  have hlasts : e.viewLift.lasts o := fun hname => by
    simp only [Engine.liftRecord, hmemory]
    exact hl hname
  obtain ⟨hhead, -, hfaults, htx, hnotices⟩ := settle_front_fails h.viewLift (by rw [hb]; simp [hs])
    (by simp [Engine.prepares, hk]) hlasts hfail' (by rw [hk]; simpa using hne.symm)
  have hchecked := hsame.next (frontChecked_same o e.viewLift) (zs := [.queue, .lift])
  have hpower := hchecked.power_state
  have hfaultsC : (e.viewLift.frontChecked o).faults = e.faults := hchecked .faults (by decide)
  obtain ⟨-, htxC, hnoticesC⟩ := hchecked .outgoing (by decide)
  obtain ⟨hx, hpp⟩ := writeFault_p (((e.viewLift.frontChecked o).nameOrder o).faultOf k' (some o) false none)
    ((e.viewLift.frontChecked o).nameOrder o)
  have hnamed : ((e.viewLift.frontChecked o).nameOrder o).faults.p = some f := by
    rw [← hp, ← hfaultsC]
    rfl
  have hafter := after_keeps alone (.inl h.executing) on
  rw [after_idle alone h.executing on, Engine.refresh_link] at hafter
  rw [after_idle alone h.executing on, Engine.refresh_faults, Engine.refresh_seq, Engine.refresh_link, hhead, hfaults,
    hnotices]
  refine ⟨?_, ?_, rfl, fun hbusy => ⟨(hafter hbusy).1, ?_⟩⟩
  · rw [← hfaultsC]
    exact hx
  · rw [hnamed] at hpp
    exact hpp
  · have hn := writeFault_p_notices (new := ((e.viewLift.frontChecked o).nameOrder o).faultOf k' (some o) false none)
      (e := (e.viewLift.frontChecked o).nameOrder o) (hpower.trans_ne on) (htxC.trans_ne hbusy)
    have hlink : ((e.viewLift.frontChecked o).nameOrder o).link.notices = e.link.notices := hnoticesC
    rw [hnamed, hlink] at hn
    refine hn.trans ?_
    show (if (!f.holds k') = true then _ else _) = _
    simp only [Bool.not_eq_true']
    rfl

end front

/-! ## Sensor events (R99) -/

section events
variable {s : State} {name : Sensor} {f : Levels → Levels} {k : Engine → Engine}

/-- The part as a sensor event leaves it. -/
def State.sensorEvent (s : State) (name : Sensor) (f : Levels → Levels) (k : Engine → Engine) : State :=
  s.on (·.sensorEvent name f k)

theorem pinLevels_same (f : Levels → Levels) (e : Engine) : Same [.pins] e (e.pinLevels f) := fun p hp => by
  cases p <;> simp_all [Piece.same, Engine.pinLevels]

theorem withLevels_same (l : Levels) (e : Engine) : Same [.levels] e { e with levels := l } := fun p hp => by
  cases p <;> simp_all [Piece.same]

/-- In DEEP_OFF a sensor event changes its pin alone. -/
theorem sensor_off (hoff : s.power.state = .deepOff) : (s.sensorEvent name f k).pins = (s.pinLevels f).pins ∧
    Keeps [.pins] s (s.sensorEvent name f k) := by
  have h : (s.sensorEvent name f k).toEngine = (s.pinLevels f).refresh :=
    (if_pos (.inl hoff) : s.toEngine.sensorEvent name f k = _).trans (if_pos hoff)
  refine ⟨by rw [h, Engine.refresh_pins], rfl, ?_⟩
  rw [h]
  exact (pinLevels_same f _).trans ((refresh_same _).mono (by decide))

/-- A level that is held already is no change: the event changes its pin, and the queues settle. -/
theorem sensor_held (aside : s.aside) (hx : s.executing = none) (hl : f s.levels = s.levels) :
    (s.sensorEvent name f k).pins = (s.pinLevels f).pins ∧ Keeps (.pins :: settleParts) s (s.sensorEvent name f k) := by
  have h : (s.sensorEvent name f k).toEngine = (s.pinLevels f).after := sensorEvent_held name k (e := s.toEngine) hl
  have hsame := after_same (e := s.pinLevels f) aside.alone (.inl hx) aside.1
  refine ⟨by rw [h]; exact hsame .pins (by decide), rfl, ?_⟩
  rw [h]
  exact (pinLevels_same f _).next hsame

/-- A level that changes. -/
theorem sensor_changes (aside : s.aside) (hl : f s.levels ≠ s.levels) :
    (s.sensorEvent name f k).toEngine = (s.pinLevels f).senses name f k :=
  if_neg (not_or.2 ⟨aside.1, hl⟩)

/-- What a change of level leads to of itself: parts change that no channel waits for, and no order starts or joins. -/
structure Tacit (xs : List Piece) (k : Engine → Engine) : Prop where
  same : ∀ g, Same xs g (k g)
  seq : ∀ g, (k g).seq = g.seq ∨ ∃ orders slots, (k g).seq = { g.seq with
    queue := g.seq.queue.map (·.forget orders slots), stage := g.seq.stage.map (·.forget orders slots) }
  aside : ∀ p ∈ [Piece.receiver, .outgoing, .selfTest, .recovery, .power, .levels, .pins], p ∉ xs

theorem tacit_id : Tacit [] id := ⟨fun _ => .refl _ _, fun _ => .inl rfl, by decide⟩

theorem tacit_emptyMemory : Tacit [.memory, .queue, .line] (·.emptyMemory) where
  same := emptyMemory_same
  seq := fun g => by
    obtain ⟨slots, h | h⟩ := removeRecords_seq (fun _ => true) g
    · exact .inr ⟨_, slots, h⟩
    · exact .inl h
  aside := by decide

theorem forget_state {orders : List Order} {slots : List Nat} {o : Order} (h : o.state ≠ .executing) :
    (o.forget orders slots).state ≠ .executing := by
  have hr : (o.unrecorded slots).state = o.state := by
    unfold Order.unrecorded
    split
    · split <;> rfl
    · rfl
  rw [forget_eq]
  rw [← hr] at h
  unfold Order.unreferred
  split
  · split
    · split
      · exact OrderState.noConfusion
      · exact h
    · exact h
  · exact h

section tacit
variable {xs : List Piece}

theorem Tacit.executing (hk : Tacit xs k) {g : Engine} (h : g.executing = none) : (k g).executing = none := by
  rcases hk.seq g with hs | ⟨orders, slots, hs⟩
  · rwa [Engine.executing, hs]
  · unfold Engine.executing at h ⊢
    rw [hs]
    cases hq : g.seq.queue with
    | nil => rfl
    | cons o rest =>
      rw [hq] at h
      simp only [List.map_cons]
      refine if_neg (forget_state fun hx => ?_)
      simp [hx] at h

theorem Tacit.alone (hk : Tacit xs k) {g : Engine} (h : g.Alone) : (k g).Alone :=
  (hk.same g).alone h ⟨hk.aside _ (by decide), hk.aside _ (by decide), hk.aside _ (by decide)⟩

theorem Tacit.power_state (hk : Tacit xs k) (g : Engine) : (k g).power.state = g.power.state :=
  (hk.same g).power_state (hk.aside _ (by decide))

theorem Tacit.link (hk : Tacit xs k) (g : Engine) : (k g).link = g.link :=
  (hk.same g).link_eq ⟨hk.aside _ (by decide), hk.aside _ (by decide)⟩

theorem Tacit.after (hk : Tacit xs k) {g : Engine} (alone : g.Alone) (hx : g.executing = none)
    (on : g.power.state ≠ .deepOff) :
    Same (xs ++ settleParts) g (k g).after ∧ g.link.Keeps (k g).after.link ∧ (k g).after.power.state = g.power.state := by
  have on' : (k g).power.state ≠ .deepOff := by rwa [hk.power_state]
  have hkeeps := after_keeps (hk.alone alone) (.inl (hk.executing hx)) on'
  rw [hk.link] at hkeeps
  exact ⟨((hk.same g).mono (List.subset_append_left _ _)).trans
    ((after_same (hk.alone alone) (.inl (hk.executing hx)) on').mono (List.subset_append_right _ _)), hkeeps,
    (after_power_state (hk.alone alone) (.inl (hk.executing hx)) on').trans (hk.power_state g)⟩

/-- With no order anywhere nothing is said behind the change. -/
theorem Tacit.silent (hk : Tacit xs k) {g : Engine} (rest : g.resting) : (k g).after.link = g.link := by
  obtain ⟨hrun, hwake, ⟨hq, hst, hstage, hgroups, hstate, hview, hent⟩, hx, ht, hr, hs, he, hu, hd⟩ := rest
  have alone : g.Alone := ⟨ht, hr, hs, he, by rw [hu]; decide, hd⟩
  have on : g.power.state ≠ .deepOff := by rw [hrun]; decide
  have hseq : (k g).seq = g.seq := by
    rcases hk.seq g with hs | ⟨orders, slots, hs⟩
    · exact hs
    · have hqueue : g.seq.queue.map (·.forget orders slots) = g.seq.queue := by rw [hq]; rfl
      have hstage : g.seq.stage.map (·.forget orders slots) = g.seq.stage := by rw [hst]; rfl
      rw [hs, hqueue, hstage]
  rw [after_idle (hk.alone alone) (hk.executing hx) (by rwa [hk.power_state]), viewLift_not_waiting (by rwa [hseq]),
    Engine.refresh_link, settle_emptied_link (by rwa [hseq]) (by rwa [hseq]) (by rwa [hseq]), hk.link]

end tacit

/-- What a SENSOR notice does to the outgoing line. -/
def State.says (n : Sensor) (s t : State) : Prop :=
  (s.link.tx ≠ none → s.link.notices = [] → t.raised (.sensor (some n) t.levels) ∨ t.overflowed) ∧
  (s.resting → t.link = s.link.noticed (.sensor (some n) t.levels))

/-- A level that changes, with what it leads to. -/
theorem sensor_says {xs : List Piece} (aside : s.aside) (hl : f s.levels ≠ s.levels)
    (h : ∀ l d, let g : Engine := { s.pinLevels f with levels := f s.levels, link := l, display := d }
      Same xs g (k g).after ∧ g.link.Keeps (k g).after.link ∧ (k g).after.power.state ≠ .deepOff)
    (hxs : ∀ p ∈ [Piece.receiver, .levels, .pins], p ∉ xs := by decide) : let t := s.sensorEvent name f k
    t.levels = f s.levels ∧ t.pins = (s.pinLevels f).pins ∧
    (s.link.tx ≠ none → s.link.notices = [] → t.raised (.sensor (some name) t.levels) ∨ t.overflowed) ∧
    Same ([.outgoing, .message, .openValues] ++ xs) { s.pinLevels f with levels := f s.levels } t.toEngine := by
  intro t
  have ht : t.toEngine = (s.pinLevels f).senses name f k := sensor_changes aside hl
  have on : (s.pinLevels f).power.state ≠ .deepOff := aside.1
  have hsame := senses_same (name := name) (f := f) on (fun l d => (h l d).1) (hxs _ (by decide))
  have hpart : ∀ p ∈ [Piece.levels, .pins], p ∉ [Piece.outgoing, .message, .openValues] ++ xs := by
    have hsub : ∀ p ∈ [Piece.levels, .pins], p ∈ [Piece.receiver, .levels, .pins] ∧
        p ∉ [Piece.outgoing, .message, .openValues] := by decide
    intro p hp h
    obtain ⟨hin, hsaid⟩ := hsub p hp
    simp only [List.mem_append, hxs p hin, hsaid, or_self] at h
  have hlevels : t.levels = f s.levels := by rw [ht]; exact hsame .levels (hpart _ (by decide))
  refine ⟨hlevels, by rw [ht]; exact hsame .pins (hpart _ (by decide)), fun htx hn => ?_, ht ▸ hsame⟩
  rw [hlevels, ht]
  exact senses_said on htx (fun l d => (h l d).2.2) fun l d => (h l d).2.1

/-- A level that changes while no order executes. -/
theorem sensor_tacit {xs : List Piece} (aside : s.aside) (hx : s.executing = none) (hl : f s.levels ≠ s.levels)
    (hk : Tacit xs k) : let t := s.sensorEvent name f k
    t.levels = f s.levels ∧ t.pins = (s.pinLevels f).pins ∧ s.says name t ∧
      Same ([.outgoing, .message, .openValues] ++ (xs ++ settleParts)) { s.pinLevels f with levels := f s.levels } t.toEngine := by
  intro t
  have ht : t.toEngine = (s.pinLevels f).senses name f k := sensor_changes aside hl
  have hafter : ∀ l d, _ := fun l d => hk.after
    (g := { s.pinLevels f with levels := f s.levels, link := l, display := d }) aside.alone hx aside.1
  have hon : ∀ l d, (Engine.sensed k l d { s.pinLevels f with levels := f s.levels }).power.state ≠ .deepOff :=
    fun l d => (hafter l d).2.2.trans_ne aside.1
  have hout : ∀ p ∈ [Piece.receiver, .levels, .pins], p ∉ xs ++ settleParts := by
    have hsub : ∀ p ∈ [Piece.receiver, .levels, .pins],
        p ∈ [Piece.receiver, .outgoing, .selfTest, .recovery, .power, .levels, .pins] ∧ p ∉ settleParts := by decide
    intro p hp h
    obtain ⟨hin, hsettle⟩ := hsub p hp
    simp only [List.mem_append, hk.aside p hin, hsettle, or_self] at h
  obtain ⟨hlevels, hpins, hsaid, hsame⟩ := sensor_says (name := name) aside hl
    (fun l d => ⟨(hafter l d).1, (hafter l d).2.1, hon l d⟩) hout
  refine ⟨hlevels, hpins, ⟨hsaid, fun rest => ?_⟩, hsame⟩
  rw [hlevels, ht]
  exact senses_quiet aside.1 hon fun l d =>
    hk.silent (g := { s.pinLevels f with levels := f s.levels, link := l, display := d }) rest

theorem fronted_of_idle {e : Engine} {o : Order} {rest : List Order} (hn : NumbersOk e.seq) (hx : e.executing = none)
    (hq : e.seq.queue = o :: rest) : e.Fronted o := by
  obtain ⟨hnodup, -⟩ := hn
  refine ⟨fun hs => ?_, rest, hq, fun p hp hnum => ?_⟩
  · simp [Engine.executing, hq, hs] at hx
  · rw [hq, List.cons_append, List.map_cons, List.nodup_cons] at hnodup
    exact hnodup.1 (hnum ▸ List.mem_map_of_mem hp)

section again
variable {o : Order} {kind : FaultKind} {slot : FaultSlot} {rest : List Order}

/-- The order that the P slot names passes, or fails as before, when a level has changed (R69, R166). -/
theorem sensor_again_quiet (aside : s.aside) (hx : s.executing = none) (hl : f s.levels ≠ s.levels) (orders : OrdersOk s.seq)
    (hst : s.seq.state = .faulted) (hq : s.seq.queue = o :: rest) (hlasts : s.lasts o) (hk : o.held = some kind)
    (hw : o.heldWritten = true) (h : Engine.failure o { s.toEngine with levels := f s.levels } = none ∨
      Engine.failure o { s.toEngine with levels := f s.levels } = some kind) :
    (s.sensorEvent name f id).faults = s.faults ∧ (s.sensorEvent name f id).seq.queue.head? =
      some (o.prepared (Check.of (Engine.failure o { s.toEngine with levels := f s.levels }))) := by
  have ht : (s.sensorEvent name f id).toEngine = (s.pinLevels f).senses name f id := sensor_changes aside hl
  rw [ht]
  have hfront : s.toEngine.Fronted o := fronted_of_idle orders.1 hx hq
  exact senses_holds (P := fun e => e.faults = s.faults ∧ e.seq.queue.head? =
      some (o.prepared (Check.of (Engine.failure o { s.toEngine with levels := f s.levels })))) aside.1
    (fun _ _ _ _ h => h) fun l d => after_front_quiet
      (e := { s.pinLevels f with levels := f s.levels, link := l, display := d }) aside.alone aside.1 hfront hst hlasts hk hw h

/-- The order that the P slot names fails in another way when a level has changed (R69, R165, R166). -/
theorem sensor_again_fails {k' : FaultKind} (aside : s.aside) (hx : s.executing = none) (hl : f s.levels ≠ s.levels)
    (orders : OrdersOk s.seq) (hst : s.seq.state = .faulted) (hq : s.seq.queue = o :: rest) (hlasts : s.lasts o)
    (hk : o.held = some kind) (h : Engine.failure o { s.toEngine with levels := f s.levels } = some k') (hne : k' ≠ kind)
    (hp : s.faults.p = some slot) : let t := s.sensorEvent name f id
    t.faults.x = s.faults.x ∧ t.faults.p = some (slot.further k') ∧
    t.seq.queue.head? = some { o with state := .queued, held := some k', heldWritten := true } ∧
    (s.link.tx ≠ none → s.link.notices = [] → (t.raised (slot.notice .p k') ↔ slot.holds k' = false)) := by
  intro t
  have ht : t.toEngine = (s.pinLevels f).senses name f id := sensor_changes aside hl
  have hfront : s.toEngine.Fronted o := fronted_of_idle orders.1 hx hq
  have hafter : ∀ l d, _ := fun l d => after_front_fails
    (e := { s.pinLevels f with levels := f s.levels, link := l, display := d }) aside.alone aside.1 hfront hst hlasts hk h
    hne hp
  have hon : ∀ l d, (Engine.sensed id l d { s.pinLevels f with levels := f s.levels }).power.state ≠ .deepOff := fun l d =>
    (after_power_state (e := { s.pinLevels f with levels := f s.levels, link := l, display := d }) aside.alone (.inl hx)
      aside.1).trans_ne aside.1
  rw [ht]
  obtain ⟨hfx, hfp, hhead⟩ := senses_holds (name := name) (f := f) (k := id) (e := s.pinLevels f)
    (P := fun e => e.faults.x = s.faults.x ∧ e.faults.p = some (slot.further k') ∧
      e.seq.queue.head? = some { o with state := .queued, held := some k', heldWritten := true }) aside.1
    (fun _ _ _ _ h => h) fun l d => by
      obtain ⟨hx, hp, hh, -⟩ := hafter l d
      exact ⟨hx, hp, hh⟩
  exact ⟨hfx, hfp, hhead, fun htx hn => senses_follows aside.1 Notice.noConfusion rfl htx hn hon fun l d hbusy =>
    (hafter l d).2.2.2 hbusy⟩

end again

/-! ## The release lever (R101, R111) -/

theorem forget_cell (slots : List Nat) (c : Cell) :
    (∃ k ∈ slots, c.origin = .onPaper (some k) ∧ c.forget slots = { c with origin := .onPaper none }) ∨
    (∀ k ∈ slots, c.origin ≠ .onPaper (some k)) ∧ c.forget slots = c := by
  unfold Cell.forget
  split
  · rename_i k hk
    split
    · exact .inl ⟨k, ‹_›, hk, rfl⟩
    · refine .inr ⟨fun j hj h => ?_, rfl⟩
      rw [hk] at h
      cases h
      contradiction
  · rename_i h
    exact .inr ⟨fun k _ hk => h k hk, rfl⟩

/-- Every cell on paper loses its record. -/
theorem emptyMemory_line (e : Engine) : e.emptyMemory.comp.line =
    e.comp.line.map (·.forget (e.memory.records.map (·.slot))) := by
  have hall : (e.memory.records.filter fun _ => true) = e.memory.records := List.filter_true _
  simp only [Engine.emptyMemory, Engine.removeRecords, Engine.forget, hall]
  split
  · rename_i h
    rw [h]
    refine (List.map_id' _).symm.trans (List.map_congr_left fun c _ => ?_)
    rcases forget_cell [] c with ⟨k, hk, -⟩ | ⟨-, h⟩
    · exact absurd hk List.not_mem_nil
    · exact h.symm
  · rfl

/-- The release lever empties the correction memory, and every cell on paper loses its record (R101, R111). -/
theorem lever_changes (aside : s.aside) (hx : s.executing = none) (hl : f s.levels ≠ s.levels) :
    let t := s.sensorEvent name f (·.emptyMemory)
    t.levels = f s.levels ∧ t.pins = (s.pinLevels f).pins ∧ s.says name t ∧ t.memory = { s.memory with records := [] } ∧
    t.comp.line = s.comp.line.map (·.forget (s.memory.records.map (·.slot))) ∧
    Keeps (.levels :: .pins :: .memory :: .line :: .openValues :: settleParts) s t := by
  intro t
  have ht : t.toEngine = (s.pinLevels f).senses name f (·.emptyMemory) := sensor_changes aside hl
  obtain ⟨hlevels, hpins, hsays, hsame⟩ := sensor_tacit (name := name) aside hx hl tacit_emptyMemory
  have hafter : ∀ l d, _ := fun l d => after_same
    (tacit_emptyMemory.alone (g := { s.pinLevels f with levels := f s.levels, link := l, display := d }) aside.alone)
    (.inl (tacit_emptyMemory.executing hx)) ((tacit_emptyMemory.power_state _).trans_ne aside.1)
  obtain ⟨hmemory, hline⟩ := senses_holds (name := name) (f := f) (k := (·.emptyMemory)) (e := s.pinLevels f)
    (P := fun e => e.memory = { s.memory with records := [] } ∧
      e.comp.line = s.comp.line.map (·.forget (s.memory.records.map (·.slot)))) aside.1 (fun _ _ _ _ h => h) fun l d => by
        have hm : (Engine.sensed (·.emptyMemory) l d { s.pinLevels f with levels := f s.levels }).memory = _ :=
          hafter l d .memory (by decide)
        obtain ⟨hl, -⟩ := hafter l d .line (by decide)
        exact ⟨hm.trans (emptyMemory_memory _), hl.trans (emptyMemory_line _)⟩
  exact ⟨hlevels, hpins, hsays, by rw [ht]; exact hmemory, by rw [ht]; exact hline, rfl,
    ((pinLevels_same f _).next ((withLevels_same _ _).next hsame (zs := .levels :: .pins :: .memory :: .line :: .openValues :: settleParts)))⟩

/-- Paper, ribbon or tape takes its level; a change of it is said, and touches the queues alone (R99, R69). -/
theorem plain_changes (p : PlainSensor) (level : Bool) (aside : s.aside) (hx : s.executing = none) :
    let t := s.sensorEvent (plainName p) (·.change p level) id
    t.levels = s.levels.change p level ∧ t.pins = (s.pinLevels (·.change p level)).pins ∧
    (s.levels.change p level ≠ s.levels → s.says (plainName p) t) ∧
    Keeps (.levels :: .pins :: .openValues :: settleParts) s t := by
  intro t
  by_cases hl : s.levels.change p level = s.levels
  · obtain ⟨hpins, hkeeps⟩ := sensor_held (name := plainName p) (k := id) aside hx hl
    have hlevels : t.levels = s.levels := hkeeps.2 .levels (by decide)
    exact ⟨hlevels.trans hl.symm, hpins, fun h => absurd hl h, hkeeps.1, hkeeps.2.mono (by decide)⟩
  · obtain ⟨hlevels, hpins, hsays, hsame⟩ := sensor_tacit (name := plainName p) aside hx hl tacit_id
    exact ⟨hlevels, hpins, fun _ => hsays, rfl, (pinLevels_same _ _).next
      ((withLevels_same _ _).next hsame (zs := .levels :: .pins :: .openValues :: settleParts))⟩

end events
end Sys2Proof.Machine
end

section
set_option Elab.async false
namespace Sys2Proof.Machine

/-! ## The cover closes (R59, R93) -/

section closes
variable {e : Engine}

theorem editWake_none {f : Wake → Wake} (h : e.power.wake = none) : e.editWake f = e := by
  simp only [Engine.editWake, h, Option.map_none]
  rw [← h]

theorem editRehoming_none {f : Rehoming → Rehoming} (h : e.power.softReset = none) : e.editRehoming f = e := by
  simp only [Engine.editRehoming, h, Option.map_none]
  rw [← h]

theorem editTest_none {f : SelfTest → SelfTest} (h : e.selfTest = none) : e.editTest f = e := by
  simp only [Engine.editTest, h, Option.map_none]
  rw [← h]

/-- No part of a wake, a soft reset or start-up waits for the cover. -/
theorem restartParts_none (hw : e.power.wake = none) (hs : e.power.softReset = none) (hu : e.power.startUp = none) :
    e.restartParts = e := by
  simp only [Engine.restartParts, editWake_none hw, editRehoming_none hs, hw]
  rw [if_neg (by simp [hu])]

/-- The wheel as the cover-closed event energises it (R93). -/
def Wheel.energised (w : Wheel) : Wheel :=
  { w with state := if w.state = .off then .unknown else w.state, recoveryFailed := false }

/-- The homing that the cover-closed event starts begins its search. -/
def Engine.searches (use : HomingUse) (required : Option Nat) (e : Engine) : Engine :=
  Engine.homeWheel use required { e with wheel := e.wheel.energised }

theorem searches_same (use : HomingUse) (required : Option Nat) (e : Engine) : Same [.wheel] e (e.searches use required) :=
  (withWheel_same _ e).trans (homeWheel_same _ _ _)

theorem searches_wheel (use : HomingUse) (required : Option Nat) (h : e.levels.closed = true) :
    (e.searches use required).wheel.state = .homing ∧
    (e.searches use required).wheel.homing = some ⟨use, required, .search⟩ := by
  simp only [Engine.searches, Engine.homeWheel, if_pos h]
  exact ⟨trivial, trivial⟩

theorem searches_seq (use : HomingUse) (required : Option Nat) (e : Engine) :
    (e.searches use required).seq = e.seq := homeWheel_seq _ _ _

/-- With a composition wheel set the wheel homes to the wheel mounted before the cover opened. -/
theorem homeLoose_cover (hs : e.power.softReset = none) (hx : e.faults.x = none) (hp : e.faults.p = none)
    (hrun : e.power.state = .run) (hh : e.wheel.homing = none) (hc : e.comp.wheel ≠ none)
    (hl : e.wheel.lostByTest = false) (hidle : e.executing = none) : e.homeLoose = e.homeWheel .cover e.wheel.before := by
  have hempty : e.faults.empty = true := (faults_empty_iff _).2 ⟨hx, hp⟩
  have hcomp : e.comp.wheel.isNone = false := Option.isNone_eq_false_iff.2 (Option.isSome_iff_ne_none.2 hc)
  have hreset : e.resetHomes = false := by simp only [Engine.resetHomes, hs]
  have hrecovery : e.needsRecovery = false := by simp [Engine.needsRecovery, hcomp, hl]
  have hcover : e.needsCoverHoming = true := by simp [Engine.needsCoverHoming, hrun, hempty, hh, hreset, hidle]
  rw [Engine.homeLoose, hh]
  simp only [hrecovery, hcover, Bool.false_eq_true, if_false, if_true]

variable (aside : e.aside) (hx : e.faults.x = none) (hp : e.faults.p = none)
include aside

theorem recover_eq : e.recover = Engine.homeAfterCover { e with wheel := e.wheel.energised } := by
  obtain ⟨-, hw, -, -, hs, -, hu, -⟩ := aside
  exact congrArg Engine.homeAfterCover (restartParts_none (e := { e with wheel := e.wheel.energised }) hw hs hu)

include hx hp

/-- With no order executing and a composition wheel set the wheel homes to the wheel mounted before the cover opened. -/
theorem recover_idle (hrun : e.power.state = .run) (hh : e.wheel.homing = none) (hc : e.comp.wheel ≠ none)
    (hl : e.wheel.lostByTest = false) (hidle : e.executing = none) : e.recover = e.searches .cover e.wheel.before := by
  have hs : e.power.softReset = none := aside.2.2.2.2.1
  have hexec : ({ e with wheel := e.wheel.energised } : Engine).executing = none := hidle
  rw [recover_eq aside, Engine.homeAfterCover, hexec]
  exact homeLoose_cover (e := { e with wheel := e.wheel.energised }) hs hx hp hrun hh hc hl hexec

/-- A WHEEL_CHANGE that awaits the closed cover homes the wheel, with the id that it expects. -/
theorem recover_change {o : Order} {x : Nat} (ho : e.executing = some o) (hk : o.kind = .wheelChange x)
    (hphase : o.phase = .awaitClose) : e.recover =
      Engine.searches .change (requiredOf x) (e.setPhase o .home) := by
  have hempty : e.faults.empty = true := (faults_empty_iff _).2 ⟨hx, hp⟩
  have hexec : ({ e with wheel := e.wheel.energised } : Engine).executing = some o := ho
  rw [recover_eq aside, Engine.homeAfterCover, hexec]
  simp only [hk]
  rw [if_pos ⟨hphase, hempty⟩]
  rfl

end closes

/-- What an event does that leads to no step of an order. -/
theorem after_effect {xs : List Piece} {g h : Engine} (same : Same xs g h) (alone : h.Alone) (stands : h.Stands)
    (on : h.power.state ≠ .deepOff) (keeps : g.link.Keeps h.link) :
    Same (xs ++ settleParts) g h.after ∧ g.link.Keeps h.after.link ∧ h.after.power.state ≠ .deepOff :=
  ⟨(same.mono (List.subset_append_left _ _)).trans ((after_same alone stands on).mono (List.subset_append_right _ _)),
    keeps.trans (after_keeps alone stands on), (after_power_state alone stands on).trans_ne on⟩

section cover
variable {s : State}

/-- What the cover-closed event leads to. -/
def Engine.onClosed (e : Engine) : Engine := if e.energised then e.recover else e

/-- The cover's level when it has closed. -/
def Levels.shut (l : Levels) : Levels := { l with closed := true }

theorem energised_run {e : Engine} (h : e.power.state = .run) : e.energised = true := by simp [Engine.energised, h]

theorem shut_ne {l : Levels} (h : l.closed = false) : l.shut ≠ l := fun k => by
  have := congrArg Levels.closed k
  simp [Levels.shut, h] at this

/-- The part with the cover's new level, before what it leads to. -/
abbrev State.covered (s : State) (f : Levels → Levels) (l : Link) (d : Display) : Engine :=
  { s.pinLevels f with levels := f s.levels, link := l, display := d }

/-- The cover closes, and a homing begins its search. -/
theorem closed_searches {use : HomingUse} {required : Option Nat} {p : Engine → Engine} (aside : s.aside)
    (hl : s.levels.closed = false) (hp : ∀ g, Same [.queue] g (p g))
    (hk : ∀ l d, (s.covered Levels.shut l d).onClosed = (p (s.covered Levels.shut l d)).searches use required)
    (stands : ∀ l d, ((p (s.covered Levels.shut l d)).searches use required).Stands) :
    let t := s.sensorEvent .cover Levels.shut Engine.onClosed
    t.levels = s.levels.shut ∧ t.pins = (s.pinLevels Levels.shut).pins ∧
    (s.link.tx ≠ none → s.link.notices = [] → t.raised (.sensor (some .cover) t.levels) ∨ t.overflowed) ∧
    t.wheel.state = .homing ∧ t.wheel.homing = some ⟨use, required, .search⟩ ∧
    Keeps (.levels :: .pins :: .wheel :: .openValues :: settleParts) s t ∧
    ∀ o, (∀ l d, (p (s.covered Levels.shut l d)).Headed o) → t.seq.queue.head? = some o := by
  intro t
  have hte : t.toEngine = (s.pinLevels Levels.shut).senses .cover Levels.shut Engine.onClosed :=
    sensor_changes aside (shut_ne hl)
  have hsearch : ∀ l d, Same [.queue, .wheel] (s.covered Levels.shut l d) (s.covered Levels.shut l d).onClosed := fun l d => by
    rw [hk l d]
    exact (hp _).next (searches_same _ _ _)
  have alone : ∀ l d, (s.covered Levels.shut l d).onClosed.Alone := fun l d =>
    (hsearch l d).alone (Engine.aside.alone aside)
  have on : ∀ l d, (s.covered Levels.shut l d).onClosed.power.state ≠ .deepOff := fun l d =>
    (hsearch l d).power_state.trans_ne aside.1
  have hstands : ∀ l d, (s.covered Levels.shut l d).onClosed.Stands := fun l d => by
    rw [hk l d]
    exact stands l d
  obtain ⟨hlevels, hpins, hsaid, hsame⟩ := sensor_says (name := .cover) (k := Engine.onClosed)
    (xs := [.queue, .wheel] ++ settleParts) aside (shut_ne hl) fun l d =>
      after_effect (hsearch l d) (alone l d) (hstands l d) (on l d) ((hsearch l d).link (.refl _))
  obtain ⟨hstate, hhoming⟩ := senses_holds (name := .cover) (f := Levels.shut) (k := Engine.onClosed) (e := s.pinLevels Levels.shut)
    (P := fun e => e.wheel.state = .homing ∧ e.wheel.homing = some ⟨use, required, .search⟩) aside.1
    (fun _ _ _ _ h => h) fun l d => by
      have hw := (after_same (alone l d) (hstands l d) (on l d)).wheel
      have hclosed : (p (s.covered Levels.shut l d)).levels.closed = true :=
        congrArg Levels.closed (hp (s.covered Levels.shut l d) .levels (by decide))
      obtain ⟨h1, h2⟩ := searches_wheel use required hclosed
      rw [← hk l d] at h1 h2
      exact ⟨(congrArg Wheel.state hw :).trans h1, (congrArg Wheel.homing hw :).trans h2⟩
  refine ⟨hlevels, hpins, hsaid, by rw [hte]; exact hstate, by rw [hte]; exact hhoming, ⟨rfl, (pinLevels_same _ _).next
    ((withLevels_same _ _).next hsame (zs := .levels :: .pins :: .wheel :: .openValues :: settleParts))⟩, fun o ho => ?_⟩
  have hsearched : ∀ l d, (s.covered Levels.shut l d).onClosed.Headed o := fun l d => by
    rw [hk l d, Engine.Headed, searches_seq]
    exact ho l d
  have hhead := senses_holds (name := .cover) (f := Levels.shut) (k := Engine.onClosed) (e := s.pinLevels Levels.shut)
    (P := Engine.Headed o) aside.1 (fun _ _ _ _ h => h) fun l d =>
      after_settleKeeps (settleKeeps_headed o) (fun g h => by rwa [Engine.Headed, Engine.refresh_seq]) (alone l d)
        (hstands l d) (on l d) (hsearched l d)
  rw [hte]
  exact hhead.head

section outside
variable (aside : s.aside) (hrun : s.power.state = .run) (hl : s.levels.closed = false) (hx : s.faults.x = none)
  (hp : s.faults.p = none)
include aside hrun hl hx hp

/-- The cover closes: the wheel homes, to the wheel mounted before (R93). -/
theorem closed_idle (hh : s.wheel.homing = none) (hc : s.comp.wheel ≠ none) (ht : s.wheel.lostByTest = false)
    (hidle : s.executing = none) : let t := s.sensorEvent .cover Levels.shut Engine.onClosed
    t.levels = s.levels.shut ∧ t.pins = (s.pinLevels Levels.shut).pins ∧
    (s.link.tx ≠ none → s.link.notices = [] → t.raised (.sensor (some .cover) t.levels) ∨ t.overflowed) ∧
    t.wheel.state = .homing ∧ t.wheel.homing = some ⟨.cover, s.wheel.before, .search⟩ ∧
    Keeps (.levels :: .pins :: .wheel :: .openValues :: settleParts) s t := by
  obtain ⟨hlevels, hpins, hsaid, hstate, hhoming, hkeeps, -⟩ := closed_searches (use := .cover)
    (required := s.wheel.before) (p := id) aside hl (fun g => .refl _ g)
    (fun l d => (if_pos (energised_run hrun)).trans (recover_idle (e := s.covered Levels.shut l d) aside hx hp hrun hh hc ht hidle))
    (fun l d => .inl (by rw [Engine.executing, searches_seq]; exact hidle))
  exact ⟨hlevels, hpins, hsaid, hstate, hhoming, hkeeps⟩

/-- The cover closes under a WHEEL_CHANGE that awaits it: the wheel homes for the order (R59). -/
theorem closed_change (orders : OrdersOk s.seq) {o : Order} {x : Nat} (ho : s.executing = some o)
    (hk : o.kind = .wheelChange x) (hphase : o.phase = .awaitClose) : let t := s.sensorEvent .cover Levels.shut Engine.onClosed
    t.levels = s.levels.shut ∧ t.pins = (s.pinLevels Levels.shut).pins ∧
    (s.link.tx ≠ none → s.link.notices = [] → t.raised (.sensor (some .cover) t.levels) ∨ t.overflowed) ∧
    t.wheel.state = .homing ∧ t.wheel.homing = some ⟨.change, requiredOf x, .search⟩ ∧
    t.seq.queue.head? = some { o with phase := .home } ∧
    Keeps (.levels :: .pins :: .wheel :: .openValues :: settleParts) s t := by
  have head : ∀ l d, ((s.covered Levels.shut l d).setPhase o .home).Headed { o with phase := .home } := fun l d =>
    Engine.Headed.setPhase (headed_of_executing (e := s.covered Levels.shut l d) orders.1 ho) .home
  obtain ⟨hlevels, hpins, hsaid, hstate, hhoming, hkeeps, hhead⟩ := closed_searches (p := fun g => g.setPhase o .home) aside hl
    (fun g => setPhase_same o .home g)
    (fun l d => (if_pos (energised_run hrun)).trans
      (recover_change (e := s.covered Levels.shut l d) aside hx hp ho hk hphase))
    (fun l d => .inr (.inr ⟨{ o with phase := .home }, x, by
      rw [Engine.executing, searches_seq]
      exact (head l d).executing, hk, Phase.noConfusion, (faults_empty_iff _).2 ⟨hx, hp⟩⟩))
  exact ⟨hlevels, hpins, hsaid, hstate, hhoming, hhead _ head, hkeeps⟩

end outside
end cover
end Sys2Proof.Machine
end

section
set_option Elab.async false
namespace Sys2Proof.Machine

/-! ## The cover opens (R93, R100) -/

/-- The slot's content for a fault of an order (R164). -/
def Engine.orderSlot (kind : FaultKind) (o : Order) (e : Engine) : FaultSlot :=
  { kind := kind, order := some o.kind.name, group := o.group, target := some (o.horizontal, o.vertical)
    glyph := e.glyphOf o, afterHammer := o.afterHammer, required := none, count := 0, kinds := [] }

section faults
variable {e : Engine} {o : Order} {kind : FaultKind}

theorem faultOf_order : e.faultOf kind (some o) true none = e.orderSlot kind o := by
  simp only [Engine.faultOf, Engine.orderSlot, orderGlyph_eq, Bool.true_and]

/-- What a fault that is written to the X slot leaves there. -/
theorem writeFault_x (new : FaultSlot) : (e.writeFault .x new).faults.x = some (putFault new e.faults.x).1 := by
  have hb : ∀ (k : FaultKind) (d : Engine), (d.becomeFaulted k).faults = d.faults := fun k d =>
    becomeFaulted_same k d .faults (by decide)
  unfold Engine.writeFault
  simp only
  split <;> simp [hb]

/-- The first fault of a slot is said. -/
theorem writeFault_first_said {new : FaultSlot} (hx : e.faults.x = none) (on : e.power.state ≠ .deepOff)
    (htx : e.link.tx ≠ none) :
    (e.writeFault .x new).raised (new.notice .x new.kind) ∨ (e.writeFault .x new).overflowed := by
  simp only [Engine.writeFault, hx, putFault, if_true]
  have hsame := fun d : Engine => becomeFaulted_same new.kind d
  exact offer_taken ((hsame _).power_state.trans_ne on) (by rw [(hsame _).link_eq]; exact htx)

/-- The first fault of the executing order is written to the X slot and said; the sequencer is FAULTED (R76, R165). -/
theorem orderFault_writes (hx : e.faults.x = none) : (e.orderFault kind o none).faults.x = some (e.orderSlot kind o) ∧
    (e.seq.state ≠ .stopped → (e.orderFault kind o none).seq.state = .faulted) ∧
    (e.power.state ≠ .deepOff → e.link.tx ≠ none →
      (e.orderFault kind o none).raised ((e.orderSlot kind o).notice .x kind) ∨ (e.orderFault kind o none).overflowed) := by
  rw [Engine.orderFault, faultOf_order]
  refine ⟨(writeHeld_x _).trans (writeFault_first hx), fun hs => (writeHeld_state _).2 ?_, fun on htx => ?_⟩
  · obtain ⟨t, b, hseq⟩ := writeFault_seq .x (e.orderSlot kind o) e
    rw [hseq]
    exact if_neg hs
  · obtain ⟨hbusy, -⟩ := writeFault_keeps (slot := .x) (new := e.orderSlot kind o) (Link.Keeps.refl e.link) htx
    obtain ⟨-, hkept, hover⟩ := writeHeld_keeps (Link.Keeps.refl (e.writeFault .x (e.orderSlot kind o)).link) hbusy
    exact (writeFault_first_said hx on htx).imp (fun h => hkept _ h rfl) hover

end faults

section stops
variable {e : Engine}

/-- An operation that leaves the sequencer's parts alone leaves it as it was. -/
theorem Same.seq_eq {xs : List Piece} {f : Engine} (h : Same xs e f)
    (hx : ∀ p ∈ [Piece.queue, .ids, .ink, .recovery], p ∉ xs := by decide) : f.seq = e.seq := by
  have hq := h .queue (hx _ (by decide))
  have hi := h .ids (hx _ (by decide))
  have hk := h .ink (hx _ (by decide))
  have hr := h .recovery (hx _ (by decide))
  simp only [Piece.same] at hq hi hk hr
  generalize f.seq = l at *
  generalize e.seq = m at *
  cases l
  cases m
  simp_all

/-- The channels stopped by the cover, before the notice of a homing that this ends. -/
def Engine.halted (e : Engine) : Engine :=
  Engine.stopLift { e.stopCarriage with wheel := e.stopCarriage.wheel.uncovered, platen := e.stopCarriage.platen.halt }

theorem halted_same : Same [.carriage, .openValues, .wheel, .platen, .lift] e e.halted := by
  have hstop := stopCarriage_same e
  have hwheel := withWheel_same e.stopCarriage.wheel.uncovered e.stopCarriage
  have hplaten := withPlaten_same e.stopCarriage.platen.halt { e.stopCarriage with wheel := e.stopCarriage.wheel.uncovered }
  exact (hstop.mono (by decide)).trans ((hwheel.mono (by decide)).trans
    ((hplaten.mono (by decide)).trans ((stopLift_same _).mono (by decide))))

theorem stopChannels_eq : e.stopChannels = e.halted.offerAll e.wheel.interruptedNotice.toList := rfl

theorem stopChannels_same : Same [.carriage, .openValues, .wheel, .platen, .lift, .outgoing, .message] e e.stopChannels :=
  stopChannels_eq ▸ halted_same.next (offerAll_same _ _)

theorem stopChannels_keeps : e.link.Keeps e.stopChannels.link := by
  rw [stopChannels_eq]
  exact offerAll_keeps (halted_same.link (.refl _))

/-- The channels as the cover leaves them. -/
theorem stopChannels_parts : (e.stopChannels.wheel.state = .off ∧ e.stopChannels.wheel.petal = none ∧
      e.stopChannels.wheel.mounted = none ∧ e.stopChannels.wheel.before = e.wheel.mounted) ∧
    e.stopChannels.platen = e.platen.halt ∧ e.stopChannels.carriage = e.stopCarriage.carriage := by
  have hsaid : Same [.outgoing, .message] e.halted e.stopChannels := stopChannels_eq ▸ offerAll_same _ _
  have hlift : Same [.lift] _ e.halted := stopLift_same { e.stopCarriage with
    wheel := e.stopCarriage.wheel.uncovered, platen := e.stopCarriage.platen.halt }
  have hw := hsaid.wheel.trans hlift.wheel
  have hstop := stopCarriage_same e
  have hbefore : e.stopCarriage.wheel.mounted = e.wheel.mounted := (congrArg Wheel.mounted hstop.wheel :)
  have hplaten : e.stopCarriage.platen = e.platen := hstop .platen (by decide)
  refine ⟨⟨(congrArg Wheel.state hw :), (congrArg Wheel.petal hw :), (congrArg Wheel.mounted hw :),
    (congrArg Wheel.before hw : _ = e.stopCarriage.wheel.mounted).trans hbefore⟩, ?_, ?_⟩
  · rw [← hplaten]
    exact (hsaid .platen (by decide) : _ = _).trans (hlift .platen (by decide))
  · exact (hsaid .carriage (by decide) : _ = _).trans (hlift .carriage (by decide))

theorem stopCarriage_busy (h : e.carriage.state = .moving ∨ e.carriage.state = .homing) :
    e.stopCarriage.carriage.state = .lost := by
  have hb : e.carriage.busy = true := by simpa [Carriage.busy] using h
  rw [Engine.stopCarriage, if_pos hb]
  rfl

theorem stopCarriage_still (hm : e.carriage.state ≠ .moving) (hh : e.carriage.state ≠ .homing) : e.stopCarriage = e :=
  if_neg (by simp [Carriage.busy, hm, hh])

theorem halt_feeding {p : Platen} (h : p.state = .feeding) : p.halt = { p with state := .idle, remaining := 0, timer := none } :=
  if_pos h

/-- What the cover's fault does (R59, R100). -/
theorem coverFault_cases (moving : Bool) (ht : e.selfTest = none) (hr : e.seq.recovery = {}) :
    (e.coverFault moving = e ∧ (e.executing = none ∨ e.faults.empty = false)) ∨
    (∃ o x, e.executing = some o ∧ o.kind = .wheelChange x ∧ o.phase = .awaitOpen ∧
      e.coverFault moving = e.setPhase o .awaitClose) ∨
    (∃ o, e.executing = some o ∧ ¬ (o.phase = .awaitOpen ∧ o.isChange = true) ∧ e.faults.empty = true ∧
      e.coverFault moving = e.orderFault .coverOpen o none) ∨
    (e.faults.empty = false ∧ e.coverFault moving = e.writeFault .x (e.faultOf .coverOpen none false none)) := by
  have hover : e.seq.recovery.over = true := by rw [hr]; rfl
  have hloose : e.looseFault .coverOpen none = e.writeFault .x (e.faultOf .coverOpen none false none) :=
    if_neg (by simp [ht])
  unfold Engine.coverFault
  rw [if_neg (by simp [ht])]
  cases hx : e.executing with
  | none =>
    simp only [hover, hloose, Bool.not_true, Bool.false_eq_true, if_false]
    split
    · rename_i h
      simp only [Bool.and_eq_true, Bool.not_eq_true'] at h
      exact .inr (.inr (.inr ⟨h.1.1.1, rfl⟩))
    · exact .inl ⟨rfl, .inl trivial⟩
  | some o =>
    simp only [hloose]
    by_cases hawait : o.phase = .awaitOpen ∧ o.isChange = true
    · obtain ⟨hphase, hchange⟩ := hawait
      have hkind : ∃ x, o.kind = .wheelChange x := by
        unfold Order.isChange at hchange
        split at hchange
        · exact ⟨_, ‹_›⟩
        · cases hchange
      obtain ⟨x, hk⟩ := hkind
      exact .inr (.inl ⟨o, x, rfl, hk, hphase, if_pos ⟨hphase, hchange⟩⟩)
    · rw [if_neg hawait]
      by_cases hf : e.faults.empty = true
      · exact .inr (.inr (.inl ⟨o, rfl, hawait, hf, if_pos hf⟩))
      · rw [if_neg hf]
        have hf' : e.faults.empty = false := by simpa using hf
        split
        · exact .inr (.inr (.inr ⟨hf', rfl⟩))
        · exact .inl ⟨rfl, .inr hf'⟩

theorem coverFault_same (moving : Bool) (ht : e.selfTest = none) (hr : e.seq.recovery = {}) :
    Same [.queue, .message, .faults, .outgoing] e (e.coverFault moving) := by
  rcases coverFault_cases moving ht hr with ⟨h, -⟩ | ⟨o, x, -, -, -, h⟩ | ⟨o, -, -, -, h⟩ | ⟨-, h⟩ <;> rw [h]
  · exact .refl _ e
  · exact (setPhase_same o .awaitClose e).mono (by decide)
  · exact (orderFault_same .coverOpen o none e).mono (by decide)
  · exact (writeFault_same .x _ e).mono (by decide)

theorem coverFault_keeps (moving : Bool) (ht : e.selfTest = none) (hr : e.seq.recovery = {}) :
    e.link.Keeps (e.coverFault moving).link := by
  rcases coverFault_cases moving ht hr with ⟨h, -⟩ | ⟨o, x, -, -, -, h⟩ | ⟨o, -, -, -, h⟩ | ⟨-, h⟩ <;> rw [h]
  · exact .refl _
  · exact (setPhase_same o .awaitClose e).link (.refl _)
  · exact writeHeld_keeps (writeFault_keeps (.refl _))
  · exact writeFault_keeps (.refl _)

/-- Behind the cover's fault no order takes a step of its own. -/
theorem coverFault_stands (moving : Bool) (ht : e.selfTest = none) (hr : e.seq.recovery = {})
    (hn : ∀ o, e.executing = some o → e.Headed o) : (e.coverFault moving).Stands := by
  have hfull : ∀ {f : FaultRecord} {c : FaultSlot}, f.x = some c → f.empty = false := fun h => by
    simp [FaultRecord.empty, h]
  rcases coverFault_cases moving ht hr with ⟨h, hs⟩ | ⟨o, x, hx, hk, -, h⟩ | ⟨o, hx, -, hf, h⟩ | ⟨hf, h⟩ <;> rw [h]
  · exact hs.imp_right .inl
  · by_cases hf : (e.setPhase o .awaitClose).faults.empty = true
    · exact .inr (.inr ⟨{ o with phase := .awaitClose }, x, ((hn o hx).setPhase _).executing, hk, Phase.noConfusion, hf⟩)
    · exact .inr (.inl (by simpa using hf))
  · obtain ⟨hempty, -⟩ := (faults_empty_iff _).1 hf
    exact .inr (.inl (hfull (orderFault_writes hempty).1))
  · exact .inr (.inl (hfull (writeFault_x _)))

/-- With nothing of a wake, a soft reset, a test or an entry under way, the cover stops the channels, and what else follows
are the checks of the P order and the fault. -/
theorem uncover_eq (aside : e.aside) : e.uncover = (e.stopChannels.prepare).coverFault e.underWay := by
  have halone := Engine.aside.alone aside
  obtain ⟨-, hw, ht, -, hs, -⟩ := aside
  have hsame := stopChannels_same (e := e)
  have hpower : { e.stopChannels.power with timer := none, conditions := false } =
      { e.power with timer := none, conditions := false } := hsame .power (by decide)
  have htest : e.stopChannels.selfTest = none := (hsame .selfTest (by decide) : _ = _).trans ht
  have hstop : ∀ b, e.stopChannels.stopParts b = e.stopChannels := fun b => by
    rw [Engine.stopParts, editWake_none ((congrArg Power.wake hpower :).trans hw),
      editRehoming_none ((congrArg Power.softReset hpower :).trans hs)]
  have huncovered : ∀ a b c, e.stopChannels.testUncovered a b c = e.stopChannels := fun a b c => by
    simp only [Engine.testUncovered, htest]
  have hgive : e.stopChannels.giveUpEntry = e.stopChannels := if_neg (by
    rw [(hsame.alone halone).2.2.2.1]
    decide)
  have hway : ((e.stopChannels.prepare).coverFault e.underWay).power.deepOff = none := by
    have alone : e.stopChannels.prepare.Alone := (prepare_same _).alone (hsame.alone halone)
    exact ((coverFault_same _ alone.1 alone.2.1).alone alone).2.2.2.2.2
  simp only [Engine.uncover, hstop, huncovered, hgive, ite_self]
  exact if_neg (by simp [hway])

end stops
end Sys2Proof.Machine
end

section
set_option Elab.async false
namespace Sys2Proof.Machine

/-! ## The cover-open event (R93, R100) -/

/-- The cover's level when it has opened. -/
def Levels.opened (l : Levels) : Levels := { l with closed := false }

/-- What the cover-open event leads to. -/
def Engine.onOpened (e : Engine) : Engine := if e.energised then e.uncover else e

/-- The part with the channels stopped and the P order prepared again. -/
def Engine.stopped (e : Engine) : Engine := e.stopChannels.prepare

/-- The parts that the cover-open event changes of itself. -/
def coverParts : List Piece := [.carriage, .openValues, .wheel, .platen, .lift, .outgoing, .message, .queue, .faults]

section opens
variable {e : Engine}

theorem stopped_same : Same [.carriage, .openValues, .wheel, .platen, .lift, .outgoing, .message, .queue] e e.stopped :=
  stopChannels_same.next (prepare_same _)

theorem stopped_keeps : e.link.Keeps e.stopped.link :=
  stopChannels_keeps.trans ((settleKeeps_link _).toPrepareKeeps.prepare (.refl _))

theorem stopped_headed {o : Order} (h : e.Headed o) : e.stopped.Headed o :=
  (settleKeeps_headed o).toPrepareKeeps.prepare (by
    rwa [Engine.Headed, Same.seq_eq stopChannels_same])

/-- No order is EXECUTING when the head is not. -/
theorem unstarted_of_idle (orders : OrdersOk e.seq) (hx : e.executing = none) : e.Unstarted := by
  obtain ⟨-, -, htail, -, hstage, -⟩ := orders
  intro p hp hs
  rcases List.mem_append.1 hp with hp | hp
  · unfold Engine.executing at hx
    cases hq : e.seq.queue with
    | nil => simp [hq] at hp
    | cons o rest =>
      rw [hq] at hp hx htail
      rcases List.mem_cons.1 hp with rfl | hp
      · simp [hs] at hx
      · exact htail p hp hs
  · rw [(hstage p hp).1] at hs
    cases hs

theorem Engine.Unstarted.idle (h : e.Unstarted) : e.executing = none := by
  unfold Engine.executing
  split
  · rename_i o rest hq
    exact if_neg (h o (by rw [hq]; exact List.mem_append_left _ List.mem_cons_self))
  · rfl

theorem stopped_idle (orders : OrdersOk e.seq) (hx : e.executing = none) : e.stopped.executing = none := by
  refine Engine.Unstarted.idle (settleKeeps_unstarted.toPrepareKeeps.prepare ?_)
  have h := unstarted_of_idle orders hx
  rwa [Engine.Unstarted, Same.seq_eq stopChannels_same]

/-- The prepare stage does not stop the sequencer. -/
theorem prepareKeeps_moves : PrepareKeeps fun e => e.seq.state ≠ .stopped where
  drain := fun {e} h => by rwa [drain_state]
  rouse := fun {e} h => by
    unfold Engine.rouse
    split
    · exact SeqState.noConfusion
    · exact h
  stale := fun h _ _ => by rwa [dropStale_seq]
  check := fun h _ => h

theorem stopped_moves (h : e.seq.state ≠ .stopped) : e.stopped.seq.state ≠ .stopped :=
  prepareKeeps_moves.prepare (e := e.stopChannels) (by rwa [Same.seq_eq stopChannels_same])

variable (aside : e.aside) (hrun : e.power.state = .run)
include aside

theorem stopped_alone : e.stopped.Alone := stopped_same.alone (Engine.aside.alone aside)

include hrun

theorem onOpened_eq : e.onOpened = e.stopped.coverFault e.underWay :=
  (if_pos (energised_run hrun)).trans (uncover_eq aside)

theorem onOpened_last : Same [.queue, .message, .faults, .outgoing] e.stopped e.onOpened := by
  rw [onOpened_eq aside hrun]
  exact coverFault_same _ (stopped_alone aside).1 (stopped_alone aside).2.1

theorem onOpened_same : Same coverParts e e.onOpened := stopped_same.next (onOpened_last aside hrun)

theorem onOpened_alone : e.onOpened.Alone := (onOpened_same aside hrun).alone (Engine.aside.alone aside)

theorem onOpened_on : e.onOpened.power.state ≠ .deepOff := (onOpened_same aside hrun).power_state.trans_ne aside.1

theorem onOpened_keeps : e.link.Keeps e.onOpened.link := by
  rw [onOpened_eq aside hrun]
  exact stopped_keeps.trans (coverFault_keeps _ (stopped_alone aside).1 (stopped_alone aside).2.1)

theorem onOpened_stands (orders : OrdersOk e.seq) : e.onOpened.Stands := by
  rw [onOpened_eq aside hrun]
  refine coverFault_stands _ (stopped_alone aside).1 (stopped_alone aside).2.1 fun o ho => ?_
  cases hx : e.executing with
  | none =>
    rw [stopped_idle orders hx] at ho
    cases ho
  | some p =>
    have hd := stopped_headed (headed_of_executing orders.1 hx)
    rw [hd.executing] at ho
    cases ho
    exact hd

/-- The channels once the cover has opened and all has settled. -/
theorem onOpened_parts (orders : OrdersOk e.seq) : let f := e.onOpened.after
    (f.wheel.state = .off ∧ f.wheel.petal = none ∧ f.wheel.mounted = none ∧ f.wheel.before = e.wheel.mounted) ∧
    f.platen = e.platen.halt ∧ f.carriage = e.stopCarriage.carriage := by
  intro f
  have hsame : Same ([.queue, .message, .faults, .outgoing] ++ settleParts) e.stopChannels f :=
    ((prepare_same e.stopChannels).mono (by decide)).trans (((onOpened_last aside hrun).mono (by decide)).trans
      ((after_same (onOpened_alone aside hrun) (onOpened_stands aside hrun orders) (onOpened_on aside hrun)).mono (by decide)))
  obtain ⟨⟨hstate, hpetal, hmounted, hbefore⟩, hplaten, hcarriage⟩ := stopChannels_parts (e := e)
  have hw := hsame.wheel
  refine ⟨⟨(congrArg Wheel.state hw :).trans hstate, (congrArg Wheel.petal hw :).trans hpetal,
    (congrArg Wheel.mounted hw :).trans hmounted, (congrArg Wheel.before hw :).trans hbefore⟩, ?_, ?_⟩
  · exact (hsame .platen (by decide) : _ = _).trans hplaten
  · exact (hsame .carriage (by decide) : _ = _).trans hcarriage

omit aside hrun

theorem coverFault_awaits (moving : Bool) {o : Order} {x : Nat} (ht : e.selfTest = none) (ho : e.executing = some o)
    (hk : o.kind = .wheelChange x) (hphase : o.phase = .awaitOpen) :
    e.coverFault moving = e.setPhase o .awaitClose := by
  have hchange : o.isChange = true := by simp [Order.isChange, hk]
  rw [Engine.coverFault, if_neg (by simp [ht]), ho]
  exact if_pos ⟨hphase, hchange⟩

theorem coverFault_order (moving : Bool) {o : Order} (ht : e.selfTest = none) (ho : e.executing = some o)
    (hphase : o.phase ≠ .awaitOpen) (hf : e.faults.empty = true) :
    e.coverFault moving = e.orderFault .coverOpen o none := by
  rw [Engine.coverFault, if_neg (by simp [ht]), ho]
  exact (if_neg fun h => hphase h.1).trans (if_pos hf)

theorem coverFault_idle (moving : Bool) (ht : e.selfTest = none) (hr : e.seq.recovery = {}) (ho : e.executing = none)
    (hf : e.faults.empty = true) : e.coverFault moving = e := by
  have hover : e.seq.recovery.over = true := by rw [hr]; rfl
  rw [Engine.coverFault, if_neg (by simp [ht]), ho]
  simp [hover, hf]

include aside hrun

theorem onOpened_settles {P : Engine → Prop} (hP : SettleKeeps P) (refresh : ∀ g : Engine, P g → P g.refresh)
    (orders : OrdersOk e.seq) (h : P e.onOpened) : P e.onOpened.after :=
  after_settleKeeps hP refresh (onOpened_alone aside hrun) (onOpened_stands aside hrun orders) (onOpened_on aside hrun) h

theorem onOpened_x (orders : OrdersOk e.seq) {x : Option FaultSlot} (h : e.onOpened.faults.x = x) :
    e.onOpened.after.faults.x = x :=
  onOpened_settles aside hrun (settleKeeps_x x) (fun g h => by rwa [Engine.refresh_faults]) orders h

/-- A WHEEL_CHANGE that awaits the open cover awaits its closing (R59). -/
theorem onOpened_awaits (orders : OrdersOk e.seq) {o : Order} {x : Nat} (ho : e.executing = some o)
    (hk : o.kind = .wheelChange x) (hphase : o.phase = .awaitOpen) :
    e.onOpened.after.seq.queue.head? = some { o with phase := .awaitClose } ∧ e.onOpened.after.faults.x = e.faults.x := by
  have hd := stopped_headed (headed_of_executing orders.1 ho)
  have heq : e.onOpened = e.stopped.setPhase o .awaitClose :=
    (onOpened_eq aside hrun).trans (coverFault_awaits _ (stopped_alone aside).1 hd.executing hk hphase)
  have hfaults : e.onOpened.faults = e.faults := by
    rw [heq]
    exact (stopped_same .faults (by decide) : _ = _)
  have hhead : e.onOpened.Headed { o with phase := .awaitClose } := by
    rw [heq]
    exact hd.setPhase _
  exact ⟨(onOpened_settles aside hrun (settleKeeps_headed _) (fun g h => by rwa [Engine.Headed, Engine.refresh_seq]) orders
    hhead).head, onOpened_x aside hrun orders (by rw [hfaults])⟩

/-- Another executing order gives COVER_OPEN (R76, R100). -/
theorem onOpened_faults (orders : OrdersOk e.seq) {o : Order} (ho : e.executing = some o) (hphase : o.phase ≠ .awaitOpen)
    (hx : e.faults.x = none) (hp : e.faults.p = none) : let f := e.onOpened.after
    f.faults.x = some (e.orderSlot .coverOpen o) ∧ (e.seq.state ≠ .stopped → f.seq.state = .faulted) ∧
    (e.link.tx ≠ none → f.link.tx ≠ none ∧ (f.raised ((e.orderSlot .coverOpen o).notice .x .coverOpen) ∨ f.overflowed)) := by
  intro f
  have hd := stopped_headed (headed_of_executing orders.1 ho)
  have hfaults : e.stopped.faults = e.faults := stopped_same .faults (by decide)
  have heq : e.onOpened = e.stopped.orderFault .coverOpen o none :=
    (onOpened_eq aside hrun).trans (coverFault_order _ (stopped_alone aside).1 hd.executing hphase
      (by rw [hfaults]; exact (faults_empty_iff _).2 ⟨hx, hp⟩))
  have hslot : e.stopped.orderSlot .coverOpen o = e.orderSlot .coverOpen o := by
    simp only [Engine.orderSlot, glyphOf_congr rfl rfl (stopped_same .memory (by decide) : e.stopped.memory = e.memory)]
  obtain ⟨hslotx, hstate, hsaid⟩ := orderFault_writes (e := e.stopped) (o := o) (kind := .coverOpen) (by rw [hfaults]; exact hx)
  rw [← heq, hslot] at hslotx hsaid
  rw [← heq] at hstate
  have hkeeps := after_keeps (onOpened_alone aside hrun) (onOpened_stands aside hrun orders) (onOpened_on aside hrun)
  refine ⟨onOpened_x aside hrun orders hslotx, fun hs => ?_, fun htx => ?_⟩
  · refine onOpened_settles aside hrun (settleKeeps_state (.inr rfl)) (fun g h => by rwa [Engine.refresh_seq]) orders
      (hstate (stopped_moves hs))
  · obtain ⟨hbusy, -⟩ := stopped_keeps htx
    obtain ⟨hbusy', -⟩ := onOpened_keeps aside hrun htx
    obtain ⟨hbusy'', hkept, hover⟩ := hkeeps hbusy'
    exact ⟨hbusy'', (hsaid (stopped_same.power_state.trans_ne aside.1) hbusy).imp (fun h => hkept _ h rfl) hover⟩

/-- With no order executing and no fault held the cover brings none in the X slot. -/
theorem onOpened_idle (orders : OrdersOk e.seq) (ho : e.executing = none) (hx : e.faults.x = none) (hp : e.faults.p = none) :
    e.onOpened.after.faults.x = none := by
  have hfaults : e.stopped.faults = e.faults := stopped_same .faults (by decide)
  refine onOpened_x aside hrun orders ?_
  rw [onOpened_eq aside hrun, coverFault_idle _ (stopped_alone aside).1 (stopped_alone aside).2.1 (stopped_idle orders ho)
    (by rw [hfaults]; exact (faults_empty_iff _).2 ⟨hx, hp⟩), hfaults]
  exact hx

end opens

section event
variable {s : State} (aside : s.aside) (hrun : s.power.state = .run) (hl : s.levels.closed = true) (orders : OrdersOk s.seq)

theorem opened_ne {l : Levels} (h : l.closed = true) : l.opened ≠ l := fun k => by
  have := congrArg Levels.closed k
  simp [Levels.opened, h] at this

include aside hrun hl orders

/-- The cover opens in RUN: the channels stop (R93, R100). -/
theorem opened_channels : let t := s.sensorEvent .cover Levels.opened Engine.onOpened
    t.levels = s.levels.opened ∧ t.pins = (s.pinLevels Levels.opened).pins ∧
    (s.link.tx ≠ none → s.link.notices = [] → t.raised (.sensor (some .cover) t.levels) ∨ t.overflowed) ∧
    (t.wheel.state = .off ∧ t.wheel.petal = none ∧ t.wheel.mounted = none ∧ t.wheel.before = s.wheel.mounted) ∧
    t.platen = s.platen.halt ∧
    (s.carriage.state = .moving ∨ s.carriage.state = .homing → t.carriage.state = .lost) ∧
    (s.carriage.state ≠ .moving → s.carriage.state ≠ .homing → t.carriage = s.carriage) ∧
    Keeps (.levels :: .pins :: .carriage :: .wheel :: .platen :: .openValues :: settleParts) s t := by
  intro t
  have hte : t.toEngine = (s.pinLevels Levels.opened).senses .cover Levels.opened Engine.onOpened :=
    sensor_changes aside (opened_ne hl)
  obtain ⟨hlevels, hpins, hsaid, hsame⟩ := sensor_says (name := .cover) (k := Engine.onOpened) (xs := coverParts ++ settleParts)
    aside (opened_ne hl) fun l d => after_effect (onOpened_same (e := s.covered Levels.opened l d) aside hrun)
      (onOpened_alone (e := s.covered Levels.opened l d) aside hrun)
      (onOpened_stands (e := s.covered Levels.opened l d) aside hrun orders)
      (onOpened_on (e := s.covered Levels.opened l d) aside hrun) (onOpened_keeps (e := s.covered Levels.opened l d) aside hrun)
  obtain ⟨hwheel, hplaten, hlost, hstill⟩ := senses_holds (name := .cover) (f := Levels.opened) (k := Engine.onOpened)
    (e := s.pinLevels Levels.opened) (P := fun e =>
      (e.wheel.state = .off ∧ e.wheel.petal = none ∧ e.wheel.mounted = none ∧ e.wheel.before = s.wheel.mounted) ∧
      e.platen = s.platen.halt ∧ (s.carriage.state = .moving ∨ s.carriage.state = .homing → e.carriage.state = .lost) ∧
      (s.carriage.state ≠ .moving → s.carriage.state ≠ .homing → e.carriage = s.carriage)) aside.1
    (fun _ _ _ _ h => h) fun l d => by
      obtain ⟨hw, hp, hc⟩ := onOpened_parts (e := s.covered Levels.opened l d) aside hrun orders
      refine ⟨hw, hp, fun hb => ?_, fun hm hh => ?_⟩
      · exact (congrArg Carriage.state hc).trans (stopCarriage_busy (e := s.covered Levels.opened l d) hb)
      · exact hc.trans (congrArg Engine.carriage (stopCarriage_still (e := s.covered Levels.opened l d) hm hh) :)
  exact ⟨hlevels, hpins, hsaid, by rw [hte]; exact hwheel, by rw [hte]; exact hplaten, by rw [hte]; exact hlost,
    by rw [hte]; exact hstill, rfl, (pinLevels_same _ _).next ((withLevels_same _ _).next hsame
      (zs := .levels :: .pins :: .carriage :: .wheel :: .platen :: .openValues :: settleParts))⟩

/-- The cover opens in RUN: the WHEEL_CHANGE that awaits it goes on, another executing order gives COVER_OPEN, and no
other fault is written (R59, R76, R100). -/
theorem opened_orders : let t := s.sensorEvent .cover Levels.opened Engine.onOpened
    (∀ o, s.executing = some o →
      (∀ x, o.kind = .wheelChange x → o.phase = .awaitOpen →
        t.seq.queue.head? = some { o with phase := .awaitClose } ∧ t.faults.x = s.faults.x) ∧
      (o.phase ≠ .awaitOpen → WritesOrderFault .coverOpen o s t)) ∧
    (s.executing = none → s.faults.x = none → s.faults.p = none → t.faults.x = none) := by
  intro t
  have hte : t.toEngine = (s.pinLevels Levels.opened).senses .cover Levels.opened Engine.onOpened :=
    sensor_changes aside (opened_ne hl)
  refine ⟨fun o ho => ⟨fun x hk hphase => ?_, fun hphase hx hp => ?_⟩, fun ho hx hp => ?_⟩ <;> rw [hte]
  · exact senses_holds (P := fun e => e.seq.queue.head? = some { o with phase := .awaitClose } ∧ e.faults.x = s.faults.x)
      aside.1 (fun _ _ _ _ h => h) fun l d =>
        onOpened_awaits (e := s.covered Levels.opened l d) aside hrun orders ho hk hphase
  · have hfaults := fun l d => onOpened_faults (e := s.covered Levels.opened l d) aside hrun orders ho hphase hx hp
    obtain ⟨hslot, hstate⟩ := senses_holds (name := .cover) (f := Levels.opened) (k := Engine.onOpened)
      (e := s.pinLevels Levels.opened) (P := fun e => e.faults.x = some (s.orderSlot .coverOpen o) ∧
        (s.seq.state ≠ .stopped → e.seq.state = .faulted)) aside.1 (fun _ _ _ _ h => h) fun l d => by
        obtain ⟨hslot, hstate, -⟩ := hfaults l d
        exact ⟨hslot, hstate⟩
    exact ⟨hslot, hstate, fun htx _ => senses_raises rfl aside.1 htx fun l d hbusy => (hfaults l d).2.2 hbusy⟩
  · exact senses_holds (P := fun e => e.faults.x = none) aside.1 (fun _ _ _ _ h => h) fun l d =>
      onOpened_idle (e := s.covered Levels.opened l d) aside hrun orders ho hx hp

end event

end Sys2Proof.Machine
end

section
set_option Elab.async false
namespace Sys2Proof.Machine

theorem again_holds {slot : FaultSlot} {k : FaultKind} : slot.holds k = false ↔ slot.kind ≠ k ∧ k ∉ slot.kinds := by
  simp [FaultSlot.holds]

/-- The order that the P slot names after new levels: PREPARED, or with the failure that it held, or with another, which the
slot takes as a further kind (R69, R165, R166). -/
def Reprepared (x : Levels) (s t : State) : Prop :=
  s.faults.x = none → s.seq.state = .faulted → ∀ f, s.faults.p = some f → ∀ o rest, s.seq.queue = o :: rest →
    s.lasts o → o.copy = none → ∀ k, o.held = some k → o.heldWritten = true →
    let again := Engine.failure o { s with levels := x }
    (again = none → t.faults = s.faults ∧
      t.seq.queue.head? = some { o with state := .prepared, held := none, heldWritten := false }) ∧
    ∀ k', again = some k' → t.faults.x = none ∧ (k' = k → t.faults.p = some f ∧ t.seq.queue.head? = some o) ∧
      (k' ≠ k → t.seq.queue.head? = some { o with state := .queued, held := some k', heldWritten := true } ∧
        t.faults.p = some (f.further k') ∧
        (s.link.tx ≠ none → s.link.notices = [] →
          (t.raised (f.notice .p k') ↔ f.kind ≠ k' ∧ k' ∉ f.kinds)))

theorem reprepared {s : State} {name : Sensor} {f : Levels → Levels} (aside : s.aside) (hx : s.executing = none)
    (hl : f s.levels ≠ s.levels) (orders : OrdersOk s.seq) : Reprepared (f s.levels) s (s.sensorEvent name f id) := by
  intro hfx hst slot hp o rest hq hlasts _ k hk hw again
  refine ⟨fun hagain => ?_, fun k' hagain => ?_⟩
  · obtain ⟨hfaults, hhead⟩ := sensor_again_quiet (name := name) aside hx hl orders hst hq hlasts hk hw (.inl hagain)
    rw [show Engine.failure o { s.toEngine with levels := f s.levels } = none from hagain] at hhead
    exact ⟨hfaults, hhead⟩
  · by_cases hne : k' = k
    · subst hne
      obtain ⟨hfaults, hhead⟩ := sensor_again_quiet (name := name) aside hx hl orders hst hq hlasts hk hw (.inr hagain)
      rw [show Engine.failure o { s.toEngine with levels := f s.levels } = some k' from hagain] at hhead
      have hsame : o.prepared (Check.of (some k')) = o := if_pos hk
      rw [hsame] at hhead
      exact ⟨by rw [hfaults]; exact hfx, fun _ => ⟨by rw [hfaults]; exact hp, hhead⟩, fun h => absurd rfl h⟩
    · obtain ⟨htx, htp, hhead, hsaid⟩ := sensor_again_fails (name := name) aside hx hl orders hst hq hlasts hk hagain hne hp
      exact ⟨htx.trans hfx, fun h => absurd h hne, fun _ => ⟨hhead, htp, fun hbusy hn => (hsaid hbusy hn).trans again_holds⟩⟩

/-- Settles O53: a sensor event is its pin, and a change of level with its SENSOR notice at any place among those of what it
leads to. For the plain sensors and the lever nothing steps but the settling; the cover stops the channels or starts a homing,
and leaves no order that takes a step. -/
theorem sensorEvents : Obligations.SensorEvents := by
  unfold Obligations.SensorEvents
  intro s level orders l q pin said
  have hsaid : ∀ {n : Sensor} {t : State}, s.says n t → said n t := fun h => ⟨h.1, fun hr _ => h.2 hr⟩
  refine ⟨fun hoff => ?_, fun aside hx => ?_, fun aside hx => ⟨fun hl => ?_, fun hl => ?_⟩, fun aside hrun hl => ?_,
    fun aside hrun hl hfx hfp hh hc ht => ⟨fun hx => ?_, fun o ho x hk hphase => ?_⟩⟩
  · simp only [List.forall_mem_cons]
    have off : ∀ name f k, ∃ t, Host.Outcome.next (s.sensorEvent name f k) = (.next t : Host.Outcome State Fault Refusal) ∧
        pin t (f q) ∧ Keeps [.pins] s t := fun name f k => ⟨_, rfl, sensor_off hoff⟩
    exact ⟨off .paper (·.change .paper level) id, off .ribbon (·.change .ribbon level) id, off .tape (·.change .tape level) id,
      off .lever (fun l => { l with engaged := level }) (·.emptyMemory), off .cover Levels.opened Engine.onOpened,
      off .cover Levels.shut Engine.onClosed, fun _ h => absurd h List.not_mem_nil⟩
  · have plain : ∀ p : PlainSensor, ∃ t, exec (.sensorChange p level) s = .next t ∧ t.levels = l.change p level ∧
        pin t (q.change p level) ∧ (l.change p level ≠ l → said (plainName p) t ∧ Reprepared (l.change p level) s t) ∧
        Keeps (.levels :: .pins :: .openValues :: settleParts) s t := fun p => by
      obtain ⟨hlevels, hpins, hsay, hkeeps⟩ := plain_changes p level aside hx
      exact ⟨_, rfl, hlevels, hpins, fun hl => ⟨hsaid (hsay hl), reprepared aside hx hl orders⟩, hkeeps⟩
    have differs : ∀ {p : PlainSensor} {b : Bool} {g : Levels → Bool}, g l = b → g (l.change p level) = level → b ≠ level →
        l.change p level ≠ l := fun {_ _ g} hb hg hne h => hne (hb.symm.trans ((congrArg g h).symm.trans hg))
    simp only [List.forall_mem_cons]
    refine ⟨?_, ?_, ?_, fun _ h => absurd h List.not_mem_nil⟩
    · obtain ⟨t, ht, hlevels, hpins, hrest, hkeeps⟩ := plain .paper
      exact ⟨t, ht, hlevels, hpins, fun hne => hrest (differs (g := Levels.present) rfl rfl hne), hkeeps⟩
    · obtain ⟨t, ht, hlevels, hpins, hrest, hkeeps⟩ := plain .ribbon
      exact ⟨t, ht, hlevels, hpins, fun hne => hrest (differs (g := Levels.ribbonEnd) rfl rfl hne), hkeeps⟩
    · obtain ⟨t, ht, hlevels, hpins, hrest, hkeeps⟩ := plain .tape
      exact ⟨t, ht, hlevels, hpins, fun hne => hrest (differs (g := Levels.tapeEnd) rfl rfl hne), hkeeps⟩
  · exact ⟨_, rfl, sensor_held (name := .lever) (k := (·.emptyMemory)) aside hx (by rw [← hl])⟩
  · obtain ⟨hlevels, hpins, hsay, hmemory, hline, hkeeps⟩ := lever_changes (name := .lever)
      (f := fun l => { l with engaged := level }) aside hx fun h => hl (congrArg Levels.engaged h).symm
    refine ⟨_, rfl, hlevels, hpins, hsaid hsay, hmemory, (congrArg List.length hline).trans (List.length_map _),
      fun _ _ c hc => ?_, hkeeps⟩
    obtain ⟨d, hd, rfl⟩ := List.mem_map.1 ((congrArg (c ∈ ·) hline).mp hc)
    rcases forget_cell (s.memory.records.map (·.slot)) d with ⟨k, -, -, h⟩ | ⟨hfree, h⟩ <;> rw [h]
    · exact .inl rfl
    · exact .inr ⟨hd, fun r hr => hfree _ (List.mem_map_of_mem hr)⟩
  · obtain ⟨hlevels, hpins, hsay, ⟨hstate, hpetal, hmounted, hbefore⟩, hplaten, hlost, hstill, hkeeps⟩ :=
      opened_channels aside hrun hl orders
    obtain ⟨hexec, hidle⟩ := opened_orders aside hrun hl orders
    refine ⟨_, rfl, hlevels, hpins, ⟨hsay, fun _ h => absurd rfl h⟩, hstate, hpetal, hmounted, hbefore, hlost,
      fun hm hh _ => hstill hm hh, fun hp _ => hplaten.trans (if_neg hp), fun hp => ?_, hexec, hidle, hkeeps⟩
    have := hplaten.trans (halt_feeding hp)
    exact ⟨(congrArg Platen.state this :), (congrArg Platen.position this :)⟩
  · obtain ⟨hlevels, hpins, hsay, hstate, hhoming, hkeeps⟩ := closed_idle aside hrun hl hfx hfp hh hc ht hx
    exact ⟨_, rfl, hlevels, hpins, ⟨hsay, fun _ h => absurd rfl h⟩, hstate, hhoming, hkeeps⟩
  · obtain ⟨hlevels, hpins, hsay, hstate, hhoming, hhead, hkeeps⟩ := closed_change aside hrun hl hfx hfp orders ho hk hphase
    exact ⟨_, rfl, hlevels, hpins, ⟨hsay, fun _ h => absurd rfl h⟩, hstate, hhoming, hhead, hkeeps⟩

end Sys2Proof.Machine
end

section
set_option Elab.async false
namespace Sys2Proof.Machine

/-! ## The dictionary's header (R139) -/

/-- Byte i of a read. -/
def byteAt (bytes : List Byte) (i : Nat) : Nat := (bytes.getD i 0).toNat

/-- The first bytes of a valid header (R139). -/
abbrev HeaderValid (bytes : List Byte) : Prop :=
  byteAt bytes 0 = 0x4A ∧ byteAt bytes 1 = 0x57 ∧ byteAt bytes 2 = 1 ∧
    byteAt bytes 4 * 256 + byteAt bytes 5 ∈ [256, 512, 1024, 2048, 4096, 8192]

/-- The fields of a header, where they stand. -/
def headerFields (bytes : List Byte) : Header :=
  { tables := min 4 (byteAt bytes 3), buckets := byteAt bytes 4 * 256 + byteAt bytes 5
    words := byteAt bytes 6 * 65536 + byteAt bytes 7 * 256 + byteAt bytes 8
    index := byteAt bytes 9 * 65536 + byteAt bytes 10 * 256 + byteAt bytes 11
    tableOffset := byteAt bytes 12 * 65536 + byteAt bytes 13 * 256 + byteAt bytes 14 }

/-- A header's fields are read when its first bytes are valid. -/
theorem headerOf_eq {bytes : List Byte} (h : bytes.length = 15) :
    headerOf bytes = if HeaderValid bytes then some (headerFields bytes) else none := by
  match bytes, h with
  | [s0, s1, v, t, b1, b0, w2, w1, w0, i2, i1, i0, o2, o1, o0], _ =>
    simp only [headerOf, HeaderValid, headerFields, byteAt, List.getD_cons_zero, List.getD_cons_succ, byte_eq_iff s0,
      byte_eq_iff s1, byte_eq_iff v, fromTwo, fromThree]
    rfl

/-! ## The end of a read (R140) -/

/-- The part with the next waiting read started. -/
def Engine.readOver (e : Engine) : Engine := { e with port := e.port.next }

theorem readOver_same (e : Engine) : Same [.port] e e.readOver := withPort_same _ e

theorem next_port {p : Port} {r : FlashRead} {rest : List FlashRead} (h : p.waiting = r :: rest) :
    p.next = { p with current := some r, timer := some 5000, waiting := rest } := by
  simp only [Port.next, h]

theorem last_port {p : Port} (h : p.waiting = []) : p.next = { p with current := none, timer := none } := by
  simp only [Port.next, h]

section reads
variable {s : State} {r : FlashRead} {bytes : List Byte} {size : Half}

theorem exec_readEnd (hr : s.port.current = some r) (h : bytes.length = r.length) {g : Engine}
    (hg : (Engine.readEnds r bytes size s.readOver).after = g) :
    exec (.flashReadEnd bytes size) s = .next (s.on fun _ => g) := by
  show Host.Outcome.next (s.on _) = _
  refine congrArg Host.Outcome.next ?_
  simp only [State.on, hr, if_pos h]
  rw [← hg]
  rfl

theorem exec_readTimeout (hr : s.port.current = some r) {g : Engine} (hg : (Engine.readFails r s.readOver).after = g) :
    exec .flashReadTimeout s = .next (s.on fun _ => g) := by
  show Host.Outcome.next (s.on _) = _
  refine congrArg Host.Outcome.next ?_
  simp only [State.on, hr]
  rw [← hg]
  rfl

/-- A read that is not in progress, or ends with another number of bytes, changes nothing. -/
theorem exec_readIgnored (h : s.port.current = none ∨ ∃ r, s.port.current = some r ∧ bytes.length ≠ r.length) :
    ∃ t, exec (.flashReadEnd bytes size) s = .next t ∧ Keeps [] s t := by
  refine ⟨s.on Engine.refresh, ?_, rfl, refresh_same _⟩
  show Host.Outcome.next (s.on _) = _
  refine congrArg Host.Outcome.next ?_
  rcases h with h | ⟨r, h, hne⟩
  · simp only [State.on, h]
  · simp only [State.on, h, if_neg hne]

theorem exec_timeoutIgnored (h : s.port.current = none) :
    ∃ t, exec .flashReadTimeout s = .next t ∧ Keeps [] s t := by
  refine ⟨s.on Engine.refresh, ?_, rfl, refresh_same _⟩
  show Host.Outcome.next (s.on _) = _
  refine congrArg Host.Outcome.next ?_
  simp only [State.on, h]

/-- What an event leads to, once all has settled behind it. -/
theorem exec_settles {i : Instr} {K : Engine} {xs : List Piece} (same : Same xs s.toEngine K)
    (hexec : ∀ g, K.settle.refresh = g → exec i s = .next (s.on fun _ => g)) :
    ∃ t, exec i s = .next t ∧ Same settleParts K t.toEngine ∧ K.link.Keeps t.link ∧ t.power.core = K.power.core ∧
      t.pending = s.pending ∧ Same (xs ++ settleParts) s.toEngine t.toEngine := by
  have hafter := settled_same K
  have hkeeps := settle_link K
  have hpower := settle_power K
  rw [← Engine.refresh_link K.settle] at hkeeps
  rw [← Engine.refresh_power K.settle] at hpower
  obtain ⟨g, hg⟩ : ∃ g, K.settle.refresh = g := ⟨_, rfl⟩
  rw [hg] at hafter hkeeps hpower
  exact ⟨_, hexec g hg, hafter, hkeeps, hpower, rfl, (same.mono (List.subset_append_left _ _)).trans
    (hafter.mono (List.subset_append_right _ _))⟩

/-- A read's end while no order takes a step: what it does for its requester, settled. -/
theorem read_settles {i : Instr} {K : Engine} {xs : List Piece} (same : Same xs s.toEngine K) (alone : K.Alone)
    (stands : K.Stands) (on : K.power.state ≠ .deepOff)
    (hexec : ∀ g, K.after = g → exec i s = .next (s.on fun _ => g)) :
    ∃ t, exec i s = .next t ∧ Same settleParts K t.toEngine ∧ K.link.Keeps t.link ∧ t.power.core = K.power.core ∧
      t.pending = s.pending ∧ Same (xs ++ settleParts) s.toEngine t.toEngine := by
  have hview := viewLift_same K
  have hpower : { K.viewLift.power with timer := none, conditions := false } =
      { K.power with timer := none, conditions := false } := hview .power (by decide)
  rw [after_stands alone stands on] at hexec
  obtain ⟨t, ht, hset, hlink, hcore, hpend, -⟩ := exec_settles (i := i) ((same.mono (List.subset_append_left xs _)).trans
    (hview.mono (List.subset_append_of_subset_right xs (by decide)) : Same (xs ++ settleParts) _ _)) hexec
  have hfar := (hview.mono (by decide)).trans hset
  exact ⟨t, ht, hfar, (hview.link (.refl _)).trans hlink, hcore.trans (congrArg Power.core hpower :), hpend,
    (same.mono (List.subset_append_left _ _)).trans (hfar.mono (List.subset_append_right _ _))⟩

end reads

/-! ## The reads of start-up (R48, R141, R185) -/

section startUp
variable {e : Engine}

/-- A change of what is known of the dictionary. -/
theorem withDictionary_same {sp : Spelling} (h : sp.words = e.spell.words ∧ sp.lastWord = e.spell.lastWord ∧
    sp.lookups = e.spell.lookups ∧ sp.user = e.spell.user) : Same [.dictionary] e { e with spell := sp } := by
  obtain ⟨hwords, hlast, hlookups, huser⟩ := h
  intro p hp
  cases p <;> simp_all [Piece.same]

theorem readTable_same (k : Nat) : Same [.slots, .port] e (e.readTable k) := by
  intro p hp
  cases p <;> simp_all [Piece.same, Engine.readTable]

theorem startCarriage_same : Same [.carriage, .power, .standbyTimer] e e.startCarriage :=
  (withPower_same { e.power with startUp := some .carriage } e).next (homeCarriage_same _ _ _)

theorem ask_idle {p : Port} (r : FlashRead) (h : p.current = none) : p.ask r = { p with current := some r, timer := some 5000 } := by
  simp only [Port.ask, h]

/-- What the end of start-up's header read notes: the dictionary, its notice, the lit display, and the tables as the next
step. -/
def Engine.noted (sp : Spelling) (e : Engine) : Engine :=
  let e := Engine.offer sp.dictNotice { e with spell := sp }
  { e with display := e.display.light, power := { e.power with startUp := some .tables } }

theorem noted_same {sp : Spelling} (h : sp.words = e.spell.words ∧ sp.lastWord = e.spell.lastWord ∧
    sp.lookups = e.spell.lookups ∧ sp.user = e.spell.user) :
    Same [.dictionary, .outgoing, .message, .light, .power, .standbyTimer] e (e.noted sp) := by
  have hoffer := (withDictionary_same h).next (offer_same sp.dictNotice _) (zs := [.dictionary, .outgoing, .message])
  have hlit := (light_same (Engine.offer sp.dictNotice { e with spell := sp })).next (withPower_same
    { (Engine.offer sp.dictNotice { e with spell := sp }).power with startUp := some .tables } _)
    (zs := [.light, .power, .standbyTimer])
  exact hoffer.next hlit

theorem noted_fields (sp : Spelling) : (e.noted sp).spell = sp ∧ (e.noted sp).display.lit = true ∧
    (e.noted sp).power.startUp = some .tables ∧ (e.noted sp).power.state = e.power.state ∧ (e.noted sp).seq = e.seq ∧
    (e.noted sp).slots = e.slots ∧ (e.noted sp).port = e.port := by
  have hsame := offer_same sp.dictNotice { e with spell := sp }
  have hspell : (Engine.offer sp.dictNotice { e with spell := sp }).spell = sp := by
    unfold Engine.offer
    split <;> rfl
  have hlit : ∀ d : Display, d.light.lit = true := fun d => by
    unfold Display.light
    split
    · assumption
    · rfl
  exact ⟨hspell, hlit _, rfl, (congrArg Power.state (offer_power _ { e with spell := sp }) :), offer_seq _ _, hsame .slots (by decide),
    hsame .port (by decide)⟩

theorem noted_alone (sp : Spelling) (ht : e.selfTest = none) (hr : e.seq.recovery = {}) (hs : e.power.softReset = none)
    (he : e.power.entering = none) (hd : e.power.deepOff = none) : (e.noted sp).Alone := by
  have hpower := offer_power sp.dictNotice { e with spell := sp }
  have hseq := offer_seq sp.dictNotice { e with spell := sp }
  have htest := offer_selfTest sp.dictNotice { e with spell := sp }
  refine ⟨htest.trans ht, (congrArg Sequencer.recovery hseq).trans hr, ?_, ?_, nofun, ?_⟩
  · exact (congrArg Power.softReset hpower).trans hs
  · exact (congrArg Power.entering hpower).trans he
  · exact (congrArg Power.deepOff hpower).trans hd

theorem nextTable_read {k : Nat} (h : k < e.spell.tableCount) : e.nextTable k = e.readTable k := if_pos h

theorem nextTable_done {k : Nat} (h : e.spell.tableCount ≤ k) : e.nextTable k = e.startCarriage := if_neg (by omega)

theorem startCarriage_alone (h : e.Alone) : e.startCarriage.Alone := by
  obtain ⟨ht, hr, hs, he, -, hd⟩ := h
  exact ⟨ht, hr, hs, he, nofun, hd⟩

end startUp

/-- Start-up goes on with no order executing, and no test, recovery, re-homing, entry or way to DEEP_OFF under way. -/
def Engine.Starting (e : Engine) : Prop :=
  e.power.state = .starting ∧ e.executing = none ∧ e.selfTest = none ∧ e.seq.recovery = {} ∧ e.power.softReset = none ∧
  e.power.entering = none ∧ e.power.deepOff = none

section startUp
variable {s : State} {e : Engine} {i : Instr} {sp : Spelling} (starting : s.Starting) (hsame : Same [.port, .pins] s.toEngine e)
  (hpower : e.power = s.power) (hsp : sp.words = e.spell.words ∧ sp.lastWord = e.spell.lastWord ∧
    sp.lookups = e.spell.lookups ∧ sp.user = e.spell.user)
include starting hsame hpower hsp

theorem noted_starting : (e.noted sp).Alone ∧ (e.noted sp).executing = none ∧ (e.noted sp).power.state ≠ .deepOff ∧
    Same [.port, .pins, .dictionary, .outgoing, .message, .light, .power, .standbyTimer] s.toEngine (e.noted sp) := by
  obtain ⟨hst, hx, ht, hr, hs, he, hd⟩ := starting
  obtain ⟨-, -, -, hstate, hseq, -⟩ := noted_fields (e := e) sp
  have hseqs : e.seq = s.seq := hsame.seq_eq
  refine ⟨noted_alone sp ((hsame .selfTest (by decide) : _ = _).trans ht) (by rw [hseqs]; exact hr)
    (by rw [hpower]; exact hs) (by rw [hpower]; exact he) (by rw [hpower]; exact hd), ?_, ?_,
    hsame.next (noted_same hsp)⟩
  · rw [Engine.executing, hseq, hseqs]
    exact hx
  · rw [hstate, hpower, hst]
    decide

/-- A valid header with tables is followed by the read of the first. -/
theorem header_reads (hcount : 0 < sp.tableCount) (hcur : e.port.current = none)
    (hexec : ∀ g, ((e.noted sp).nextTable 0).after = g → exec i s = .next (s.on fun _ => g)) :
    ∃ t, exec i s = .next t ∧ (t.spell.dict = sp.dict ∧ t.spell.bucketCount = sp.bucketCount ∧
      t.spell.wordCount = sp.wordCount ∧ t.spell.indexOffset = sp.indexOffset) ∧
      t.port = { e.port with current := some ⟨sp.tableOffset, 292, .table 0⟩, timer := some 5000 } ∧ t.pins = e.pins ∧
      t.slots = s.slots.set 0 { state := .loading 0 } ∧ t.display.lit = true ∧ t.power.startUp = some .tables ∧
      Keeps (.port :: .dictionary :: .light :: .slots :: .pins :: settleParts) s t := by
  obtain ⟨alone, hx, on, hnoted⟩ := noted_starting starting hsame hpower hsp
  obtain ⟨hspell, hlit, hstart, -, hseq, hslots, hport⟩ := noted_fields (e := e) sp
  have hpins : (e.noted sp).pins = e.pins := (noted_same hsp) .pins (by decide)
  rw [nextTable_read (by rw [hspell]; exact hcount)] at hexec
  have hread := readTable_same (e := e.noted sp) 0
  obtain ⟨t, ht, hset, -, hcore, hpend, hkeep⟩ := read_settles (hnoted.next hread (zs := [.port, .pins, .dictionary,
    .outgoing, .message, .light, .power, .standbyTimer, .slots])) (hread.alone alone) (.inl hx) (hread.power_state.trans_ne on) hexec
  have hslot : (e.noted sp).slots = s.slots := hslots.trans (hsame .slots (by decide))
  obtain ⟨hd1, hd2, hd3, hd4, -⟩ := hset .dictionary (by decide)
  obtain ⟨hl, -⟩ := hset .light (by decide)
  refine ⟨t, ht, ⟨hd1.trans (congrArg Spelling.dict hspell), hd2.trans (congrArg Spelling.bucketCount hspell),
    hd3.trans (congrArg Spelling.wordCount hspell), hd4.trans (congrArg Spelling.indexOffset hspell)⟩, ?_,
    (hset .pins (by decide) : _ = _).trans hpins, ?_, hl.trans hlit, (congrArg Power.startUp hcore :).trans hstart,
    hpend, hkeep.mono (by decide)⟩
  · refine (hset .port (by decide) : _ = _).trans ?_
    simp only [Engine.readTable, hport, hspell, ask_idle _ hcur]
    rfl
  · refine (hset .slots (by decide) : _ = _).trans ?_
    simp only [Engine.readTable, hslot]

/-- Without a table to read the carriage homes. -/
theorem header_homes (hcount : sp.tableCount = 0)
    (hexec : ∀ g, ((e.noted sp).nextTable 0).after = g → exec i s = .next (s.on fun _ => g)) :
    ∃ t, exec i s = .next t ∧ t.spell.dict = sp.dict ∧ t.port = e.port ∧ t.pins = e.pins ∧
      t.carriage.state = .homing ∧ t.carriage.after = .leftMargin ∧ t.power.startUp = some .carriage ∧
      Keeps (.port :: .dictionary :: .light :: .carriage :: .pins :: settleParts) s t := by
  obtain ⟨alone, hx, on, hnoted⟩ := noted_starting starting hsame hpower hsp
  obtain ⟨hspell, -, -, -, hseq, -, hport⟩ := noted_fields (e := e) sp
  have hpins : (e.noted sp).pins = e.pins := (noted_same hsp) .pins (by decide)
  rw [nextTable_done (by rw [hspell, hcount])] at hexec
  have hhomes := startCarriage_same (e := e.noted sp)
  obtain ⟨t, ht, hset, -, hcore, hpend, hkeep⟩ := read_settles (hnoted.next hhomes (zs := [.port, .pins, .dictionary,
    .outgoing, .message, .light, .power, .standbyTimer, .carriage])) (startCarriage_alone alone) (.inl hx) on hexec
  obtain ⟨hd1, -⟩ := hset .dictionary (by decide)
  have hcar : t.carriage = (e.noted sp).startCarriage.carriage := hset .carriage (by decide)
  exact ⟨t, ht, hd1.trans (congrArg Spelling.dict hspell), (hset .port (by decide) : _ = _).trans hport,
    (hset .pins (by decide) : _ = _).trans hpins, congrArg Carriage.state hcar, congrArg Carriage.after hcar,
    (congrArg Power.startUp hcore :), hpend, hkeep.mono (by decide)⟩

end startUp
end Sys2Proof.Machine
end

section
set_option Elab.async false
namespace Sys2Proof.Machine

/-! ## The wheel tables of start-up (R48) -/

/-- The part with a table's read over and its slot filled. -/
def Engine.tableOver (k : Nat) (x : WheelSlot) (e : Engine) : Engine :=
  { e.readOver with slots := e.slots.set k x }

section tables
variable {s : State} {i : Instr} {k : Nat} {x : WheelSlot}

theorem tableOver_same (k : Nat) (x : WheelSlot) (e : Engine) : Same [.port, .slots] e (e.tableOver k x) :=
  (readOver_same e).next (withSlots_same _ _)

theorem Engine.Starting.alone {e : Engine} (h : e.Starting) (hu : e.power.startUp ≠ some .lift) : e.Alone := by
  obtain ⟨-, -, ht, hr, hs, he, hd⟩ := h
  exact ⟨ht, hr, hs, he, hu, hd⟩

variable (starting : s.Starting) (hu : s.power.startUp = some .tables) (hwait : s.port.waiting = [])
  (hexec : ∀ g, ((s.tableOver k x).nextTable (k + 1)).after = g → exec i s = .next (s.on fun _ => g))
include starting hu hwait hexec

/-- A table fills its slot, and the next table's read starts. -/
theorem table_reads (h : k + 1 < s.spell.tableCount) : ∃ t, exec i s = .next t ∧
    t.slots = (s.slots.set k x).set (k + 1) { state := .loading 0 } ∧
    t.port.current = some ⟨s.spell.tableOffset + 292 * (k + 1), 292, .table (k + 1)⟩ ∧
    Keeps (.port :: .slots :: settleParts) s t := by
  have hover := tableOver_same k x s.toEngine
  have hread := readTable_same (e := s.tableOver k x) (k + 1)
  have alone : (s.tableOver k x).Alone := hover.alone (starting.alone (by rw [hu]; decide))
  have on : (s.tableOver k x).power.state ≠ .deepOff := by
    rw [hover.power_state, starting.1]
    decide
  rw [nextTable_read (e := s.tableOver k x) h] at hexec
  obtain ⟨t, ht, hset, -, -, hpend, hkeep⟩ := read_settles (hover.next hread (zs := [.port, .slots])) (hread.alone alone)
    (.inl starting.2.1) (hread.power_state.trans_ne on) hexec
  have hport : t.port = ((s.tableOver k x).readTable (k + 1)).port := hset .port (by decide)
  have hidle : (s.tableOver k x).port.current = none := congrArg Port.current (last_port hwait)
  refine ⟨t, ht, hset .slots (by decide), ?_, hpend, hkeep.mono (by decide)⟩
  rw [hport]
  simp only [Engine.readTable, ask_idle _ hidle]
  rfl

/-- The last table fills its slot, and the carriage homes. -/
theorem table_homes (h : s.spell.tableCount ≤ k + 1) : ∃ t, exec i s = .next t ∧ t.slots = s.slots.set k x ∧
    t.port.current = none ∧ t.carriage.state = .homing ∧ t.carriage.after = .leftMargin ∧
    t.power.startUp = some .carriage ∧ Keeps (.port :: .slots :: .carriage :: settleParts) s t := by
  have hover := tableOver_same k x s.toEngine
  have hhomes := startCarriage_same (e := s.tableOver k x)
  have alone : (s.tableOver k x).Alone := hover.alone (starting.alone (by rw [hu]; decide))
  have on : (s.tableOver k x).power.state ≠ .deepOff := by
    rw [hover.power_state, starting.1]
    decide
  rw [nextTable_done (e := s.tableOver k x) h] at hexec
  obtain ⟨t, ht, hset, -, hcore, hpend, hkeep⟩ := read_settles (hover.next hhomes
    (zs := [.port, .slots, .carriage, .power, .standbyTimer])) (startCarriage_alone alone) (.inl starting.2.1) on hexec
  have hport : t.port = s.port.next := hset .port (by decide)
  have hcar : t.carriage = (s.tableOver k x).startCarriage.carriage := hset .carriage (by decide)
  exact ⟨t, ht, hset .slots (by decide), by rw [hport, last_port hwait], congrArg Carriage.state hcar,
    congrArg Carriage.after hcar, (congrArg Power.startUp hcore :), hpend, hkeep.mono (by decide)⟩

end tables

/-! ## The header read of DICTIONARY (R141) -/

/-- The next waiting read is in progress. -/
def State.NextRead (s t : State) : Prop := ∀ r rest, s.port.waiting = r :: rest →
  t.port.current = some r ∧ t.port.timer = some 5000

theorem nextRead_of {s t : State} (h : t.port = s.port.next) : s.NextRead t := fun r rest hw => by
  rw [h, next_port hw]
  exact ⟨rfl, rfl⟩

section dictionary
variable {s : State} {i : Instr} {sp : Spelling}

/-- With no lookup standing the header gives the dictionary's state, with its notice. -/
theorem dictHeader_ends (aside : s.aside) (hx : s.executing = none)
    (hsp : sp.words = s.spell.words ∧ sp.lastWord = s.spell.lastWord ∧ sp.lookups = s.spell.lookups ∧ sp.user = s.spell.user)
    (hexec : ∀ g, (Engine.offer sp.dictNotice { s.readOver with spell := sp }).after = g → exec i s = .next (s.on fun _ => g)) :
    ∃ t, exec i s = .next t ∧ s.NextRead t ∧ (t.spell.dict = sp.dict ∧ t.spell.bucketCount = sp.bucketCount ∧
      t.spell.wordCount = sp.wordCount ∧ t.spell.indexOffset = sp.indexOffset) ∧
      (s.link.tx ≠ none → s.link.notices = [] → t.raised sp.dictNotice) ∧
      Keeps (.port :: .dictionary :: settleParts) s t := by
  have hread := (readOver_same s.toEngine).next (withDictionary_same (e := s.readOver) hsp) (zs := [.port, .dictionary])
  have hoffer := offer_same sp.dictNotice { s.readOver with spell := sp }
  have hsame := hread.next hoffer (zs := [.port, .dictionary, .outgoing, .message])
  have alone := hsame.alone aside.alone
  have on := hsame.power_state.trans_ne aside.1
  have hexecs : (Engine.offer sp.dictNotice { s.readOver with spell := sp }).executing = none := by
    rw [Engine.executing, offer_seq]
    exact hx
  obtain ⟨t, ht, hset, hlink, -, hpend, hkeep⟩ := read_settles hsame alone (.inl hexecs) on hexec
  have hspell : (Engine.offer sp.dictNotice { s.readOver with spell := sp }).spell = sp := by
    unfold Engine.offer
    split <;> rfl
  have hport : (Engine.offer sp.dictNotice { s.readOver with spell := sp }).port = s.port.next := hoffer .port (by decide)
  obtain ⟨hd1, hd2, hd3, hd4, -⟩ := hset .dictionary (by decide)
  rw [hspell] at hd1 hd2 hd3 hd4
  refine ⟨t, ht, nextRead_of ((hset .port (by decide) : _ = _).trans hport), ⟨hd1, hd2, hd3, hd4⟩, fun htx hn => ?_, hpend,
    hkeep.mono (by decide)⟩
  have hraised := offer_raises (n := sp.dictNotice) (e := { s.readOver with spell := sp }) aside.1 htx hn
  have hover : sp.dictNotice.isOverflow = false := by
    unfold Spelling.dictNotice
    split <;> rfl
  obtain ⟨hbusy, -⟩ := offer_keeps (n := sp.dictNotice) (e := { s.readOver with spell := sp }) (Link.Keeps.refl s.link) htx
  exact (hlink hbusy).2.1 _ hraised hover

end dictionary

/-! ## The header read of the self-test (R176) -/

/-- The codes of the failed steps among the first five. -/
def SelfTest.earlier (t : SelfTest) : List Nat :=
  let code := fun (step n : Nat) => if step ∈ t.failed then [n] else []
  code 1 6 ++ code 2 2 ++ code 3 3 ++ code 4 4 ++ if 1 ∈ t.failed then [] else code 5 6

/-- Steps 1 and 5 have one code, which stands once. -/
theorem codes_table : ∀ b1 b2 b3 b4 b5 b6 : Bool,
    (([1, 2, 3, 4, 5, 6].filter fun n => (n == 1 && b1) || (n == 2 && b2) || (n == 3 && b3) || (n == 4 && b4) ||
      (n == 5 && b5) || (n == 6 && b6)).map stepCode).eraseDups =
    (bif b1 then [6] else []) ++ (bif b2 then [2] else []) ++ (bif b3 then [3] else []) ++ (bif b4 then [4] else []) ++
      (bif b1 then [] else bif b5 then [6] else []) ++ bif b6 then [5] else [] := by decide

theorem codes_of_header (t : SelfTest) : t.codes = t.earlier ++ if 6 ∈ t.failed then [5] else [] := by
  have h := codes_table (1 ∈ t.failed) (2 ∈ t.failed) (3 ∈ t.failed) (4 ∈ t.failed) (5 ∈ t.failed) (6 ∈ t.failed)
  have hfilter : ([1, 2, 3, 4, 5, 6].filter fun n => decide (n ∈ t.failed)) =
      [1, 2, 3, 4, 5, 6].filter fun n => (n == 1 && decide (1 ∈ t.failed)) || (n == 2 && decide (2 ∈ t.failed)) ||
        (n == 3 && decide (3 ∈ t.failed)) || (n == 4 && decide (4 ∈ t.failed)) || (n == 5 && decide (5 ∈ t.failed)) ||
        (n == 6 && decide (6 ∈ t.failed)) := List.filter_congr fun n hn => by
    simp only [List.mem_cons, List.not_mem_nil, or_false] at hn
    rcases hn with rfl | rfl | rfl | rfl | rfl | rfl <;> simp
  rw [SelfTest.codes, hfilter, h]
  simp only [SelfTest.earlier, Bool.cond_decide]

/-- What the header read of the test leaves of it (R176). -/
def SelfTest.headerRead (ok : Bool) (t : SelfTest) : SelfTest := (if ok then t else t.fail 6).next

section test
variable {e : Engine} {s : State} {i : Instr} {k : SelfTest}

theorem endTest_noted (t : SelfTest) : Same [.selfTest, .outgoing, .message] e (e.endTest t) ∧
    (e.endTest t).selfTest = none ∧ (e.endTest t).seq = e.seq ∧ (e.endTest t).power = e.power :=
  ⟨(withSelfTest_same none e).next (offer_same _ _), offer_selfTest _ _, offer_seq _ _, offer_power _ _⟩

/-- Behind step 6 the test ends, and nothing else of the part goes on. -/
theorem proceed_ends {t : SelfTest} (ht : e.selfTest = some t) (hstep : t.step = 7) (hx : e.executing = none)
    (hr : e.seq.recovery = {}) (hs : e.power.softReset = none) (he : e.power.entering = none) (hu : e.power.startUp = none)
    (hd : e.power.deepOff = none) : e.proceed = e.endTest t := by
  have hview : e.viewLift = e := if_neg (by simp [ht])
  obtain ⟨-, hnone, hseq, hpower⟩ := endTest_noted (e := e) t
  have hlast : e.testStep t = e.endTest t := by
    simp only [Engine.testStep, hstep]
  have htest : advanceTest 24 e = e.endTest t := by
    rw [advanceTest_goes 23 ht hlast (by rw [hnone]; exact nofun), advanceTest_none 23 hnone]
  have hoff : (e.endTest t).power.deepOff ≠ some .lifting := by rw [hpower, hd]; exact nofun
  have hlift : (e.endTest t).power.startUp ≠ some .lift := by rw [hpower, hu]; exact nofun
  simp only [Engine.proceed, hview, advanceOrder_idle hx, htest, advanceRecovery_none ((congrArg _ hseq).trans hr),
    advanceRehoming_none ((congrArg _ hpower).trans hs), advanceEntry_none ((congrArg _ hpower).trans he),
    Engine.advanceStartLift, if_neg hlift, Engine.advanceDeepOff, if_neg hoff]

/-- The header read of a self-test ends the test with its DONE notice. -/
theorem testHeader_ends {ok : Bool} (hrun : s.power.state = .run) (hx : s.executing = none) (hr : s.seq.recovery = {})
    (hs : s.power.softReset = none) (he : s.power.entering = none) (hu : s.power.startUp = none) (hd : s.power.deepOff = none)
    (ht : s.selfTest = some k) (hstep : k.step = 6) (hsub : k.sub = 1)
    (hexec : ∀ g, (s.readOver.testHeader ok).after = g → exec i s = .next (s.on fun _ => g)) :
    ∃ t, exec i s = .next t ∧ t.selfTest = none ∧ s.NextRead t ∧
      (s.link.tx ≠ none → s.link.notices = [] → t.raised ((k.headerRead ok).notice .complete)) ∧
      Keeps (.port :: .selfTest :: settleParts) s t := by
  have htaken : s.readOver.testHeader ok = { s.readOver with selfTest := some (k.headerRead ok) } := by
    have h : s.readOver.selfTest = some k := ht
    simp only [Engine.testHeader, h, hstep, hsub, and_self, if_true, Engine.editTest, Option.map_some, SelfTest.headerRead]
  have hnumber : (k.headerRead ok).step = 7 := by
    cases ok <;> simp [SelfTest.headerRead, SelfTest.next, SelfTest.fail, hstep]
  have hproceed := proceed_ends (e := { s.readOver with selfTest := some (k.headerRead ok) }) rfl hnumber hx hr hs he hu hd
  have hon : ({ s.readOver with selfTest := some (k.headerRead ok) } : Engine).power.state ≠ .deepOff := by
    show s.power.state ≠ .deepOff
    rw [hrun]
    decide
  obtain ⟨hsame, hnone, -⟩ := endTest_noted (e := { s.readOver with selfTest := some (k.headerRead ok) }) (k.headerRead ok)
  rw [htaken, Engine.after, if_neg hon, hproceed] at hexec
  have hstart := (readOver_same s.toEngine).next (withSelfTest_same (some (k.headerRead ok)) s.readOver) (zs := [.port, .selfTest])
  obtain ⟨t, hte, hset, hlink, -, hpend, hkeep⟩ := exec_settles (hstart.next hsame
    (zs := [.port, .selfTest, .outgoing, .message])) hexec
  have hport : t.port = s.port.next := (hset .port (by decide) : _ = _).trans (hsame .port (by decide))
  refine ⟨t, hte, (hset .selfTest (by decide) : _ = _).trans hnone, nextRead_of hport, fun htx hn => ?_, hpend,
    hkeep.mono (by decide)⟩
  have hraised := offer_raises (n := (k.headerRead ok).notice .complete) (e := { s.readOver with selfTest := none }) hon htx hn
  obtain ⟨hbusy, -⟩ := offer_keeps (n := (k.headerRead ok).notice .complete) (e := { s.readOver with selfTest := none })
    (Link.Keeps.refl s.link) htx
  exact (hlink hbusy).2.1 _ hraised rfl

/-- The DONE notice lists the codes of the failed steps, 05 last for the header (R176). -/
theorem headerRead_notice (hfirst : 6 ∉ k.failed) (ok : Bool) : (k.headerRead ok).notice .complete =
    .done k.group .selfTest .complete 0
      (if ok then (if k.earlier = [] then [1] else k.earlier) else k.earlier ++ [5]) := by
  cases ok with
  | true =>
    have hcodes : (k.headerRead true).codes = k.earlier := by
      rw [codes_of_header]
      simp only [SelfTest.headerRead, if_true, SelfTest.next, hfirst, if_false, List.append_nil]
      rfl
    simp only [SelfTest.notice, hcodes, if_true]
    rfl
  | false =>
    have hfailed : (k.headerRead false).failed = k.failed ++ [6] := by
      simp [SelfTest.headerRead, SelfTest.next, SelfTest.fail, hfirst]
    have hcodes : (k.headerRead false).codes = k.earlier ++ [5] := by
      rw [codes_of_header]
      simp [SelfTest.earlier, hfailed]
    have hne : k.earlier ++ [5] ≠ [] := by simp
    simp only [SelfTest.notice, hcodes, if_neg hne, Bool.false_eq_true, if_false]
    rfl

end test
end Sys2Proof.Machine
end

section
set_option Elab.async false
namespace Sys2Proof.Machine

/-! ## Lookups (R143 to R146) -/

section lookups
variable {e : Engine}

/-- A read in progress stays so when another is asked for. -/
theorem ask_current {p : Port} {r : FlashRead} (q : FlashRead) (h : p.current = some r) :
    (p.ask q).current = some r ∧ (p.ask q).timer = p.timer := by
  simp only [Port.ask, h, and_self]

/-- A read that is asked for is in progress or waits. -/
theorem ask_mem (q : FlashRead) (p : Port) : q ∈ (p.ask q).current.toList ++ (p.ask q).waiting := by
  unfold Port.ask
  split <;> simp

/-- Serving the next lookup at most asks for its read. -/
theorem serveLookups_spell (e : Engine) : e.serveLookups.spell.words = e.spell.words ∧
    e.serveLookups.spell.lookups.length = e.spell.lookups.length ∧
    (e.serveLookups.port = e.port ∨ ∃ q, e.serveLookups.port = e.port.ask q) := by
  unfold Engine.serveLookups
  split
  · rename_i l rest hl
    split
    · exact ⟨rfl, by rw [hl]; rfl, .inr ⟨_, rfl⟩⟩
    · exact ⟨rfl, rfl, .inl rfl⟩
  · exact ⟨rfl, rfl, .inl rfl⟩

theorem lookupLeaves_spell (e : Engine) : e.lookupLeaves.spell.words = e.spell.words ∧
    e.lookupLeaves.spell.lookups.length = e.spell.lookups.length - 1 ∧
    (e.lookupLeaves.port = e.port ∨ ∃ q, e.lookupLeaves.port = e.port.ask q) := by
  obtain ⟨hw, hl, hp⟩ := serveLookups_spell { e with spell := { e.spell with lookups := e.spell.lookups.drop 1 } }
  exact ⟨hw, hl.trans List.length_drop, hp⟩

/-- The entry that a lookup of a pending word holds. -/
theorem heldBy_eq {sp : Spelling} {l : Lookup} {id : WordId} {w : WordEntry} (hn : (sp.words.map (·.id)).Nodup)
    (hl : l.word = some id) (hw : w ∈ sp.words) (hid : w.id = id) (he : w.epoch = l.epoch) (hs : w.state = .pending) :
    sp.heldBy l = some w := by
  rw [Spelling.heldBy, hl, Option.bind_some]
  cases hf : sp.words.find? (fun v => v.id = id && v.epoch = l.epoch && v.state = .pending) with
  | none =>
    have := List.find?_eq_none.1 hf w hw
    simp [hid, he, hs] at this
  | some v =>
    have hv := List.find?_some hf
    simp only [Bool.and_eq_true, decide_eq_true_eq] at hv
    exact congrArg some (List.inj_on_of_nodup_map hn (List.mem_of_find?_eq_some hf) hw (hv.1.1.trans hid.symm))

/-- The entries after a verdict on one. -/
theorem edit_words (sp : Spelling) (id : WordId) (f : WordEntry → WordEntry) :
    (∀ v ∈ (sp.edit id f).words, v.id = id → ∃ w, v = f w) ∧ ∀ v ∈ sp.words, v.id ≠ id → v ∈ (sp.edit id f).words := by
  refine ⟨fun v hv hid => ?_, fun v hv hid => ?_⟩
  · obtain ⟨w, hw, rfl⟩ := List.mem_map.1 hv
    by_cases h : w.id = id
    · exact ⟨w, if_pos h⟩
    · rw [if_neg h] at hid
      exact absurd hid h
  · exact List.mem_map.2 ⟨v, hv, if_neg hid⟩

/-- What a verdict gives the word that its lookup holds: CLEAN, or SUSPECT with a notice; the lookup leaves (R145). -/
theorem verdict_held {l : Lookup} {w : WordEntry} (found : Bool) (h : e.spell.heldBy l = some w)
    (on : e.power.state ≠ .deepOff) : let K := e.verdict l found
    let clean := found || decide (l.letters ∈ e.spell.user)
    (∀ v ∈ K.spell.words, v.id = w.id → v.state = if clean then .clean else .suspect) ∧
    (∀ v ∈ e.spell.words, v.id ≠ w.id → v ∈ K.spell.words) ∧
    K.spell.lookups.length = e.spell.lookups.length - 1 ∧
    (K.port = e.port ∨ ∃ q, K.port = e.port.ask q) ∧
    (clean = false → e.link.tx ≠ none → e.link.notices = [] →
      K.link.tx ≠ none ∧ K.raised (.spellWord w.id w.vertical w.start w.letters)) := by
  intro K clean
  by_cases hc : found = true ∨ l.letters ∈ e.spell.user
  · have hclean : clean = true := by simpa [clean] using hc
    have hK : K = Engine.lookupLeaves { e with spell := e.spell.edit w.id fun w => { w with state := .clean } } := by
      show e.verdict l found = _
      rw [Engine.verdict, h]
      exact if_pos hc
    obtain ⟨hw, hl, hp⟩ := lookupLeaves_spell { e with spell := e.spell.edit w.id fun w => { w with state := .clean } }
    obtain ⟨hin, hout⟩ := edit_words e.spell w.id (fun w => { w with state := .clean })
    rw [← hK] at hw hl hp
    refine ⟨fun v hv hid => ?_, fun v hv hid => ?_, hl, hp, fun hf => absurd (hclean.symm.trans hf) nofun⟩
    · obtain ⟨u, rfl⟩ := hin v (hw ▸ hv) hid
      rw [hclean]
      rfl
    · rw [hw]
      exact hout v hv hid
  · have hclean : clean = false := by simpa [clean] using hc
    let judged : Engine := { e with spell := e.spell.edit w.id fun w => { w with state := .suspect } }
    have hK : K = judged.lookupLeaves.offer (.spellWord w.id w.vertical w.start w.letters) := by
      show e.verdict l found = _
      rw [Engine.verdict, h]
      exact if_neg hc
    obtain ⟨hw, hl, hp⟩ := lookupLeaves_spell judged
    obtain ⟨hin, hout⟩ := edit_words e.spell w.id (fun w => { w with state := .suspect })
    have hleft := lookupLeaves_same judged
    have hoffer := offer_same (.spellWord w.id w.vertical w.start w.letters) judged.lookupLeaves
    obtain ⟨hwords, -, hlookups⟩ := hoffer .words (by decide)
    have hport : (judged.lookupLeaves.offer (.spellWord w.id w.vertical w.start w.letters)).port = judged.lookupLeaves.port :=
      hoffer .port (by decide)
    have hlink : judged.lookupLeaves.link = e.link := hleft.link_eq
    have hon : judged.lookupLeaves.power.state ≠ .deepOff := hleft.power_state.trans_ne on
    rw [← hK] at hwords hlookups hport
    refine ⟨fun v hv hid => ?_, fun v hv hid => ?_, (congrArg List.length hlookups).trans hl, ?_, fun _ htx hn => ?_⟩
    · rw [hwords, hw] at hv
      obtain ⟨u, rfl⟩ := hin v hv hid
      rw [hclean]
      rfl
    · rw [hwords, hw]
      exact hout v hv hid
    · rw [hport]
      exact hp
    · rw [← hlink] at htx hn
      rw [hK]
      exact ⟨((offer_keeps (Link.Keeps.refl judged.lookupLeaves.link)) htx).1, offer_raises hon htx hn⟩

theorem uncheckPending_words (ws : List WordEntry) : (∀ v ∈ uncheckPending ws, v.state ≠ .pending) ∧
    (uncheckPending ws).map (·.id) = ws.map (·.id) := by
  refine ⟨fun v hv => ?_, ?_⟩
  · obtain ⟨u, -, rfl⟩ := List.mem_map.1 hv
    split
    · exact nofun
    · assumption
  · rw [uncheckPending, List.map_map]
    refine List.map_congr_left fun u _ => ?_
    simp only [Function.comp]
    split <;> rfl

end lookups

/-! ## The reads of a lookup -/

section reads
variable {s : State} {i : Instr} {look : Lookup} {rest : List Lookup} {id : WordId} {w : WordEntry}

theorem nextRead_asks {t : State} (h : t.port = s.port.next ∨ ∃ q, t.port = s.port.next.ask q) : s.NextRead t := by
  rcases h with h | ⟨q, h⟩
  · exact nextRead_of h
  · intro r more hw
    have hport := next_port hw
    obtain ⟨hcur, htimer⟩ := ask_current (p := s.port.next) (r := r) q (by rw [hport])
    rw [h]
    exact ⟨hcur, by rw [htimer, hport]⟩

/-- The word that the lookup in service holds is judged, and the next read is in progress (R144, R145). -/
def Judged (rest : List Lookup) (id : WordId) (w : WordEntry) (s : State) (found : Bool) (i : Instr) : Prop :=
  ∃ t, exec i s = .next t ∧ s.NextRead t ∧ t.spell.lookups.length = rest.length ∧
    (∀ v ∈ t.spell.words, v.id = id → v.state = if found then .clean else .suspect) ∧
    (∀ v ∈ s.spell.words, v.id ≠ id → v ∈ t.spell.words) ∧
    (found = false → s.link.tx ≠ none → s.link.notices = [] → t.raised (.spellWord id w.vertical w.start w.letters)) ∧
    Keeps (.port :: .words :: settleParts) s t

variable (aside : s.aside) (hx : s.executing = none)
include aside hx

theorem verdict_settles (ok : SpellOk s.spell) (hl : s.spell.lookups = look :: rest) (hid : look.word = some id)
    (hw : w ∈ s.spell.words) (hwid : w.id = id) (he : w.epoch = look.epoch) (hs : w.state = .pending) {found : Bool}
    (hexec : ∀ g, (s.readOver.verdict look found).after = g → exec i s = .next (s.on fun _ => g)) :
    Judged rest id w s (found || decide (look.letters ∈ s.spell.user)) i := by
  obtain ⟨-, hnodup, -⟩ := ok
  have hheld : s.readOver.spell.heldBy look = some w := heldBy_eq hnodup hid hw hwid he hs
  have hread := readOver_same s.toEngine
  have hverdict := verdict_same look found s.readOver
  have hsame := hread.next hverdict (zs := [.port, .words, .outgoing, .message])
  have hstands : (s.readOver.verdict look found).Stands := .inl (by
    rw [Engine.executing, hverdict.seq_eq]
    exact hx)
  obtain ⟨t, ht, hset, hlink, -, hpend, hkeep⟩ := read_settles hsame (hsame.alone aside.alone) hstands
    (hsame.power_state.trans_ne aside.1) hexec
  obtain ⟨hjudged, hothers, hlength, hport, hsaid⟩ := verdict_held found hheld aside.1
  have hport' : t.port = (s.readOver.verdict look found).port := hset .port (by decide)
  obtain ⟨hwords, -, hlookups⟩ := hset .words (by decide)
  rw [← hwords, hwid] at hjudged hothers
  refine ⟨t, ht, nextRead_asks (by rw [hport']; exact hport), ?_, hjudged, hothers, fun hc htx hn => ?_, hpend,
    hkeep.mono (by decide)⟩
  · rw [hlookups, hlength]
    show s.spell.lookups.length - 1 = _
    rw [hl]
    rfl
  · obtain ⟨hbusy, hraised⟩ := hsaid hc htx hn
    rw [hwid] at hraised
    exact (hlink hbusy).2.1 _ hraised rfl

/-- A lookup that fails leaves the dictionary FAILED, with no lookup and no word PENDING (R146). -/
theorem lookupFails_settles (hexec : ∀ g, s.readOver.lookupFails.after = g → exec i s = .next (s.on fun _ => g)) :
    ∃ t, exec i s = .next t ∧ s.NextRead t ∧ t.spell.dict = .failed ∧ t.spell.lookups = [] ∧
      (∀ v ∈ t.spell.words, v.state ≠ .pending) ∧ t.spell.words.map (·.id) = s.spell.words.map (·.id) ∧
      (s.link.tx ≠ none → s.link.notices = [] → t.raised (.spellDict .failed 0 0)) ∧
      Keeps (.port :: .words :: .dictionary :: settleParts) s t := by
  have hread := readOver_same s.toEngine
  have hfails := lookupFails_same s.readOver
  have hsame := hread.next hfails (zs := [.port, .words, .dictionary, .outgoing, .message])
  have hstands : s.readOver.lookupFails.Stands := .inl (by
    rw [Engine.executing, hfails.seq_eq]
    exact hx)
  obtain ⟨t, ht, hset, hlink, -, hpend, hkeep⟩ := read_settles hsame (hsame.alone aside.alone) hstands
    (hsame.power_state.trans_ne aside.1) hexec
  let failed : Spelling := { s.spell with dict := .failed, lookups := [], words := uncheckPending s.spell.words }
  have hspell : s.readOver.lookupFails.spell = failed := by
    unfold Engine.lookupFails Engine.offer
    split <;> rfl
  have hport : t.port = s.port.next := (hset .port (by decide) : _ = _).trans (hfails .port (by decide))
  obtain ⟨hwords, -, hlookups⟩ := hset .words (by decide)
  obtain ⟨hdict, -⟩ := hset .dictionary (by decide)
  rw [hspell] at hwords hlookups hdict
  obtain ⟨hnone, hids⟩ := uncheckPending_words s.spell.words
  refine ⟨t, ht, nextRead_of hport, hdict, hlookups, by rw [hwords]; exact hnone, by rw [hwords]; exact hids,
    fun htx hn => ?_, hpend, hkeep.mono (by decide)⟩
  have hraised := offer_raises (n := .spellDict .failed 0 0) (e := { s.readOver with spell := failed }) aside.1 htx hn
  obtain ⟨hbusy, -⟩ := offer_keeps (n := .spellDict .failed 0 0) (e := { s.readOver with spell := failed })
    (Link.Keeps.refl s.link) htx
  exact (hlink hbusy).2.1 _ hraised rfl

/-- An index entry with a bucket is followed by the bucket's read (R144). -/
theorem index_settles {q : FlashRead} (hexec : ∀ g, Engine.after { s.readOver with
      spell := { s.spell with lookups := { look with phase := .bucket } :: rest }, port := s.port.next.ask q } = g →
      exec i s = .next (s.on fun _ => g)) :
    ∃ t, exec i s = .next t ∧ t.spell.lookups = { look with phase := .bucket } :: rest ∧
      q ∈ t.port.current.toList ++ t.port.waiting ∧ Keeps (.port :: .words :: settleParts) s t := by
  have hsame : Same [.words, .port] s.toEngine { s.readOver with
      spell := { s.spell with lookups := { look with phase := .bucket } :: rest }, port := s.port.next.ask q } := by
    intro p hp
    cases p <;> simp_all [Piece.same, Engine.readOver]
  obtain ⟨t, ht, hset, -, -, hpend, hkeep⟩ := read_settles hsame (hsame.alone aside.alone) (.inl hx) aside.1 hexec
  have hport : t.port = s.port.next.ask q := hset .port (by decide)
  obtain ⟨-, -, hlookups⟩ := hset .words (by decide)
  exact ⟨t, ht, hlookups, by rw [hport]; exact ask_mem q _, hpend, hkeep.mono (by decide)⟩

end reads
end Sys2Proof.Machine
end

section
set_option Elab.async false
namespace Sys2Proof.Machine

/-! ## What a read's end does for its requester -/

/-- The size code with which the flash device answers the header read of start-up (R195). -/
def Engine.sized (size : Half) (e : Engine) : Engine :=
  { e with pins := { e.pins with flashSize := size }, port := { e.port with flashSize := size } }

theorem sized_same (size : Half) (e : Engine) : Same [.port, .pins] e (e.sized size) := by
  intro p hp
  cases p <;> simp_all [Piece.same, Engine.sized]

/-- What is known of the dictionary after a header, with the tables that it announces. -/
def Spelling.headed (h : Header) (s : Spelling) : Spelling :=
  { s with dict := .ready, bucketCount := h.buckets, wordCount := h.words, indexOffset := h.index
           tableCount := h.tables, tableOffset := h.tableOffset }

/-- What is known of the dictionary without a header. -/
def Spelling.unheaded (d : DictState) (s : Spelling) : Spelling := { s with dict := d, tableCount := 0, tableOffset := 0 }

theorem headerOf_valid {bytes : List Byte} (h : bytes.length = 15) (valid : HeaderValid bytes) :
    headerOf bytes = some (headerFields bytes) := (headerOf_eq h).trans (if_pos valid)

theorem headerOf_invalid {bytes : List Byte} (h : bytes.length = 15) (invalid : ¬ HeaderValid bytes) :
    headerOf bytes = none := (headerOf_eq h).trans (if_neg invalid)

theorem takeHeader_rest (h : Option Header) (sp : Spelling) : (sp.takeHeader h).words = sp.words ∧
    (sp.takeHeader h).lastWord = sp.lastWord ∧ (sp.takeHeader h).lookups = sp.lookups ∧ (sp.takeHeader h).user = sp.user := by
  unfold Spelling.takeHeader
  split <;> exact ⟨rfl, rfl, rfl, rfl⟩

section requesters
variable {s : State} {e : Engine} {r : FlashRead} {bytes : List Byte} {size : Half} {look : Lookup} {rest : List Lookup}

theorem readEnds_header {h : Header} (ha : r.asker = .startHeader) (hh : headerOf bytes = some h) :
    Engine.readEnds r bytes size e = ((e.sized size).noted (e.spell.headed h)).nextTable 0 := by
  simp only [Engine.readEnds, ha, hh]
  rfl

theorem readEnds_noHeader (ha : r.asker = .startHeader) (hh : headerOf bytes = none) :
    Engine.readEnds r bytes size e = ((e.sized size).noted (e.spell.unheaded .absent)).nextTable 0 := by
  simp only [Engine.readEnds, ha, hh]
  rfl

theorem readFails_header (ha : r.asker = .startHeader) : Engine.readFails r e =
    (Engine.noted (e.spell.unheaded .failed) { e with port := { e.port with flashSize := 0 } }).nextTable 0 := by
  simp only [Engine.readFails, ha]
  rfl

theorem readEnds_table {k : Nat} (ha : r.asker = .table k) :
    Engine.readEnds r bytes size s.readOver = (s.tableOver k (slotOfTable bytes)).nextTable (k + 1) := by
  simp only [Engine.readEnds, ha]
  rfl

theorem readFails_table {k : Nat} (ha : r.asker = .table k) :
    Engine.readFails r s.readOver = (s.tableOver k {}).nextTable (k + 1) := by
  simp only [Engine.readFails, ha]
  rfl

theorem readEnds_dictionary (ha : r.asker = .dictHeader) (hl : e.spell.lookups = []) : Engine.readEnds r bytes size e =
    Engine.offer (e.spell.takeHeader (headerOf bytes)).dictNotice { e with spell := e.spell.takeHeader (headerOf bytes) } := by
  have hnone : ∀ n, (Engine.offer n { e with spell := e.spell.takeHeader (headerOf bytes) }).spell.lookups = [] := fun n => by
    obtain ⟨-, -, htake, -⟩ := takeHeader_rest (headerOf bytes) e.spell
    obtain ⟨-, -, h⟩ := offer_same n { e with spell := e.spell.takeHeader (headerOf bytes) } .words (by decide)
    exact h.trans (htake.trans hl)
  simp only [Engine.readEnds, ha]
  rw [Engine.serveLookups, hnone]

theorem readFails_dictionary (ha : r.asker = .dictHeader) : Engine.readFails r e =
    Engine.offer ({ e.spell with dict := .failed } : Spelling).dictNotice { e with spell := { e.spell with dict := .failed } } := by
  simp only [Engine.readFails, ha]

theorem readEnds_test (ha : r.asker = .testHeader) :
    Engine.readEnds r bytes size e = e.testHeader (headerOf bytes).isSome := by
  simp only [Engine.readEnds, ha]

theorem readFails_test (ha : r.asker = .testHeader) : Engine.readFails r e = e.testHeader false := by
  simp only [Engine.readFails, ha]

theorem servedLookup_eq (hl : e.spell.lookups = look :: rest) (hp : look.phase ≠ .waiting) : e.servedLookup = some look := by
  rw [Engine.servedLookup, hl]
  exact if_neg hp

theorem readEnds_index (ha : r.asker = .index) (hserved : e.servedLookup = some look) (h : bytes.length = 4) :
    Engine.readEnds r bytes size e = if byteAt bytes 3 = 0 then e.verdict look false else
      { e with spell := { e.spell with lookups := { look with phase := .bucket } :: e.spell.lookups.drop 1 }
               port := e.port.ask ⟨byteAt bytes 0 * 65536 + byteAt bytes 1 * 256 + byteAt bytes 2, byteAt bytes 3, .bucket⟩ } := by
  match bytes, h with
  | [a, b, c, n], _ =>
    simp only [Engine.readEnds, ha, Engine.indexEnds, hserved, byte_eq_iff n]
    rfl

theorem readEnds_bucket (ha : r.asker = .bucket) (hserved : e.servedLookup = some look) :
    Engine.readEnds r bytes size e = match scanBucket look.letters bytes.length bytes with
      | .found => e.verdict look true
      | .missing => e.verdict look false
      | .malformed => e.lookupFails := by
  cases hs : scanBucket look.letters bytes.length bytes <;> simp only [Engine.readEnds, ha, Engine.bucketEnds, hserved, hs]

theorem readFails_lookup (ha : r.asker = .index ∨ r.asker = .bucket) (hserved : e.servedLookup = some look) :
    Engine.readFails r e = e.lookupFails := by
  rcases ha with ha | ha <;> simp only [Engine.readFails, ha, hserved, Option.isSome_some, if_true]

end requesters

/-! ## The reads of O54 -/

section clauses
variable {s : State} {r : FlashRead} {bytes : List Byte} {size : Half}

/-- The header read of start-up ends with tables to read. -/
theorem startHeader_reads (starting : s.Starting) (hr : s.port.current = some r) (ha : r.asker = .startHeader)
    (hlen : bytes.length = r.length) (hwait : s.port.waiting = []) (h15 : bytes.length = 15) (valid : HeaderValid bytes)
    (hcount : 0 < byteAt bytes 3) : let h := headerFields bytes
    ∃ t, exec (.flashReadEnd bytes size) s = .next t ∧ t.spell.dict = .ready ∧ t.spell.bucketCount = h.buckets ∧
      t.spell.wordCount = h.words ∧ t.spell.indexOffset = h.index ∧ t.port.flashSize = size ∧
      t.pins = { s.pins with flashSize := size } ∧ t.port.current = some ⟨h.tableOffset, 292, .table 0⟩ ∧
      t.slots = s.slots.set 0 { state := .loading 0 } ∧ t.display.lit = true ∧ t.power.startUp = some .tables ∧
      Keeps (.port :: .dictionary :: .light :: .slots :: .pins :: settleParts) s t := by
  intro h
  have hheader : headerOf bytes = some h := headerOf_valid h15 valid
  have hsame := (readOver_same s.toEngine).next (sized_same size s.readOver) (zs := [.port, .pins])
  have hcur : (s.readOver.sized size).port.current = none := congrArg Port.current (last_port hwait)
  obtain ⟨t, ht, ⟨hdict, hbuckets, hwords, hindex⟩, hport, hpins, hslots, hlit, hstart, hkeep⟩ := header_reads
    (sp := s.spell.headed h) (i := .flashReadEnd bytes size) starting hsame rfl ⟨rfl, rfl, rfl, rfl⟩
    (Nat.lt_min.2 ⟨by decide, hcount⟩) hcur fun g hg => exec_readEnd hr hlen (by rw [readEnds_header ha hheader]; exact hg)
  exact ⟨t, ht, hdict, hbuckets, hwords, hindex, congrArg Port.flashSize hport, hpins, congrArg Port.current hport, hslots,
    hlit, hstart, hkeep⟩

/-- The header read of start-up ends without a valid header. -/
theorem startHeader_homes (starting : s.Starting) (hr : s.port.current = some r) (ha : r.asker = .startHeader)
    (hlen : bytes.length = r.length) (hwait : s.port.waiting = []) (h15 : bytes.length = 15) (invalid : ¬ HeaderValid bytes) :
    ∃ t, exec (.flashReadEnd bytes size) s = .next t ∧ t.spell.dict = .absent ∧ t.port.current = none ∧
      t.carriage.state = .homing ∧ t.carriage.after = .leftMargin ∧ t.power.startUp = some .carriage ∧
      Keeps (.port :: .dictionary :: .light :: .carriage :: .pins :: settleParts) s t := by
  have hheader : headerOf bytes = none := headerOf_invalid h15 invalid
  have hsame := (readOver_same s.toEngine).next (sized_same size s.readOver) (zs := [.port, .pins])
  have hcur : (s.readOver.sized size).port.current = none := congrArg Port.current (last_port hwait)
  obtain ⟨t, ht, hdict, hport, -, hrest⟩ := header_homes (sp := s.spell.unheaded .absent) (i := .flashReadEnd bytes size)
    starting hsame rfl ⟨rfl, rfl, rfl, rfl⟩ rfl fun g hg =>
      exec_readEnd hr hlen (by rw [readEnds_noHeader ha hheader]; exact hg)
  exact ⟨t, ht, hdict, (congrArg Port.current hport).trans hcur, hrest⟩

/-- The header read of start-up times out. -/
theorem startHeader_fails (starting : s.Starting) (hr : s.port.current = some r) (ha : r.asker = .startHeader)
    (hwait : s.port.waiting = []) :
    ∃ t, exec .flashReadTimeout s = .next t ∧ t.spell.dict = .failed ∧ t.port.current = none ∧
      t.carriage.state = .homing ∧ t.carriage.after = .leftMargin ∧ t.power.startUp = some .carriage ∧
      (t.port.flashSize = 0 ∧ t.pins = s.pins) ∧
      Keeps (.port :: .dictionary :: .light :: .carriage :: .pins :: settleParts) s t := by
  let e : Engine := { s.readOver with port := { s.readOver.port with flashSize := 0 } }
  have hsame : Same [.port, .pins] s.toEngine e :=
    (readOver_same s.toEngine).next (withPort_same { s.readOver.port with flashSize := 0 } s.readOver)
  have hcur : e.port.current = none := congrArg Port.current (last_port hwait)
  obtain ⟨t, ht, hdict, hport, hpins, hhoming, hafter, hstart, hkeep⟩ := header_homes (e := e)
    (sp := s.spell.unheaded .failed) (i := .flashReadTimeout) starting hsame rfl ⟨rfl, rfl, rfl, rfl⟩ rfl fun g hg =>
      exec_readTimeout hr (by rw [readFails_header ha]; exact hg)
  exact ⟨t, ht, hdict, (congrArg Port.current hport).trans hcur, hhoming, hafter, hstart,
    ⟨congrArg Port.flashSize hport, hpins⟩, hkeep⟩

end clauses

/-- Settles O54: the end of a read is what it does for its requester, with the next waiting read started, and all settled
behind it. -/
theorem flashReads : Obligations.FlashReads := by
  unfold Obligations.FlashReads
  intro s bytes size at' valid buckets words index next
  refine ⟨fun hnone => ⟨exec_readIgnored (.inl hnone), exec_timeoutIgnored hnone⟩, fun r hr => ⟨fun hne =>
    exec_readIgnored (.inr ⟨r, hr, hne⟩), ?_, ?_, ?_, ?_, ?_⟩⟩
  · intro hst hup hx ht hrec hs he hd ha hlen hwait _
    have starting : s.Starting := ⟨hst, hx, ht, hrec, hs, he, hd⟩
    refine ⟨fun h15 hvalid hcount => startHeader_reads starting hr ha (h15.trans hlen.symm) hwait h15 hvalid hcount, ?_⟩
    have failed := startHeader_fails starting hr ha hwait
    intro i hi hcase _
    by_cases htime : i = .flashReadTimeout
    · subst htime
      obtain ⟨t, ht, hdict, hcur, hhome, hafter, hstart, hpins, hkeep⟩ := failed
      exact ⟨t, ht, hdict, hcur, hhome, hafter, hstart, fun _ => hpins, hkeep⟩
    · obtain ⟨h15, hinvalid⟩ := hcase.resolve_left htime
      have hi' : i = .flashReadEnd bytes size := by simpa [htime] using hi
      subst hi'
      obtain ⟨t, ht, hdict, hcur, hhome, hafter, hstart, hkeep⟩ := startHeader_homes starting hr ha (h15.trans hlen.symm) hwait
        h15 hinvalid
      exact ⟨t, ht, hdict, hcur, hhome, hafter, hstart, fun h => absurd h htime, hkeep⟩
  · intro k ha hlen hst hup hx ht hrec hs he hd hwait
    have starting : s.Starting := ⟨hst, hx, ht, hrec, hs, he, hd⟩
    have table : ∀ (i : Instr) (x : WheelSlot),
        (∀ g, ((s.tableOver k x).nextTable (k + 1)).after = g → exec i s = .next (s.on fun _ => g)) → _ ∧ _ :=
      fun i x hexec => ⟨table_reads starting hup hwait hexec, table_homes starting hup hwait hexec⟩
    simp only [List.forall_mem_cons]
    refine ⟨fun hcase => table _ _ fun g hg => exec_readEnd hr ?_ (by rw [readEnds_table ha]; exact hg),
      fun _ => table _ _ fun g hg => exec_readTimeout hr (by rw [readFails_table ha]; exact hg),
      fun _ h => absurd h List.not_mem_nil⟩
    exact (hcase.resolve_left nofun).trans hlen.symm
  · intro aside hx ha hl
    refine ⟨fun h15 hlen => ?_, ?_⟩
    · obtain ⟨t, ht, hnext, hdict, -, hkeep⟩ := dictHeader_ends (sp := s.spell.takeHeader (headerOf bytes))
        (i := .flashReadEnd bytes size) aside hx (takeHeader_rest _ _) fun g hg => exec_readEnd hr (h15.trans hlen.symm)
          (by rw [readEnds_dictionary (e := s.readOver) ha hl]; exact hg)
      refine ⟨t, ht, hnext, fun hvalid => ?_, fun hvalid => ?_, hkeep⟩
      · rw [headerOf_valid h15 hvalid] at hdict
        exact hdict
      · rw [headerOf_invalid h15 hvalid] at hdict
        exact hdict.1
    · obtain ⟨t, ht, hnext, ⟨hdict, -⟩, hsaid, hkeep⟩ := dictHeader_ends (sp := { s.spell with dict := .failed })
        (i := .flashReadTimeout) aside hx ⟨rfl, rfl, rfl, rfl⟩ fun g hg => exec_readTimeout hr
          (by rw [readFails_dictionary (e := s.readOver) ha]; exact hg)
      exact ⟨t, ht, hnext, hdict, hsaid, hkeep⟩
  · intro ha hrun _ hx hrec hs he hu hd k hk hstep hsub hfirst code codes ends
    have ended : ∀ {i : Instr} {ok : Bool}, (∀ g, (s.readOver.testHeader ok).after = g → exec i s = .next (s.on fun _ => g)) →
        ends i (if ok then (if codes = [] then [1] else codes) else codes ++ [5]) := fun {i ok} hexec => by
      obtain ⟨t, ht, htest, hnext, hsaid, hkeep⟩ := testHeader_ends (ok := ok) hrun hx hrec hs he hu hd hk hstep hsub hexec
      rw [headerRead_notice hfirst] at hsaid
      exact ⟨t, ht, htest, hnext, hsaid, hkeep⟩
    refine ⟨fun h15 hlen hvalid => ended (ok := true) fun g hg => exec_readEnd hr (h15.trans hlen.symm) ?_, ?_⟩
    · rw [readEnds_test ha, headerOf_valid h15 hvalid]
      exact hg
    · intro i hi hcase
      by_cases htime : i = .flashReadTimeout
      · subst htime
        exact ended (ok := false) fun g hg => exec_readTimeout hr (by rw [readFails_test ha]; exact hg)
      · obtain ⟨h15, hlen, hinvalid⟩ := hcase.resolve_left htime
        have hi' : i = .flashReadEnd bytes size := by simpa [htime] using hi
        subst hi'
        refine ended (ok := false) fun g hg => exec_readEnd hr (h15.trans hlen.symm) ?_
        rw [readEnds_test ha, headerOf_invalid h15 hinvalid]
        exact hg
  · intro aside hx ok look rest hl hphase id hid w hw hwid hepoch hpending judged known
    have hserved : s.readOver.servedLookup = some look := servedLookup_eq (e := s.readOver) hl hphase
    have verdict : ∀ {i : Instr} (found : Bool),
        (∀ g, (s.readOver.verdict look found).after = g → exec i s = .next (s.on fun _ => g)) →
        judged (found || known) i := fun found hexec =>
      verdict_settles aside hx ok hl hid hw hwid hepoch hpending hexec
    refine ⟨fun ha hlen h4 => ?_, fun ha hlen => ⟨fun hscan => ?_, fun hscan => ?_⟩, ?_⟩
    · have hends := readEnds_index (e := s.readOver) (size := size) ha hserved h4
      refine ⟨fun hzero => verdict false fun g hg => exec_readEnd hr (h4.trans hlen.symm) ?_, fun hfull =>
        index_settles (look := look) (rest := rest) aside hx fun g hg => exec_readEnd hr (h4.trans hlen.symm) ?_⟩
      · rw [hends, if_pos (show byteAt bytes 3 = 0 from hzero)]
        exact hg
      · have hdrop : s.readOver.spell.lookups.drop 1 = rest := congrArg (List.drop 1) hl
        rw [hends, if_neg (show ¬ byteAt bytes 3 = 0 from hfull), hdrop]
        exact hg
    · exact verdict true fun g hg => exec_readEnd hr hlen.symm (by rw [readEnds_bucket ha hserved, hscan]; exact hg)
    · exact verdict false fun g hg => exec_readEnd hr hlen.symm (by rw [readEnds_bucket ha hserved, hscan]; exact hg)
    · intro i hi hcase
      by_cases htime : i = .flashReadTimeout
      · subst htime
        have ha : r.asker = .index ∨ r.asker = .bucket := hcase.elim And.right fun h => .inr h.1
        exact lookupFails_settles aside hx fun g hg => exec_readTimeout hr (by rw [readFails_lookup ha hserved]; exact hg)
      · obtain ⟨ha, hlen, hscan⟩ := hcase.resolve_left fun h => htime h.1
        have hi' : i = .flashReadEnd bytes size := by simpa [htime] using hi
        subst hi'
        exact lookupFails_settles aside hx fun g hg => exec_readEnd hr hlen.symm (by
          rw [readEnds_bucket ha hserved, hscan]
          exact hg)

end Sys2Proof.Machine
end
